-- ==== Sys2Proof/Word.lean ====
section
/-! DEFINITION. The widths the block works in: bytes, window words, field values and 16-byte strings
(spec/00_scope.md rules R4 to R6). -/

namespace Sys2Proof

/-- A byte (R6). -/
abbrev Byte := BitVec 8

/-- A 32-bit word of the host window (R71, R72) and a command word (R100). -/
abbrev Word := BitVec 32

/-- One field value: FVW = 128 bits (R4, R39, R42). -/
abbrev Value := BitVec 128

/-- A 16-byte string, byte 0 first (R176): a key, a cipher block, a tag. -/
abbrev Block := Vector Byte 16

end Sys2Proof
end

