-- ==== Sys2Proof/Config.lean ====
section
/-! DEFINITION. The implementation parameters of spec/00_scope.md table T4, the constants of the block, and
the one parameter the platform leaves open, BASE (R70).  The other open parameter, LAT (R281), is not a number
of this model: every latency is an interleaving of the pending script (DESIGN CHOICE, assumption log 2, safe). -/

namespace Sys2Proof.Config

/-- KEY_BYTES (T4). -/
@[simp] abbrev keyBytes : Nat := 16

/-- BLK, the cipher block length (T4). -/
@[simp] abbrev blk : Nat := 16

/-- MIC_BYTES (T4). -/
@[simp] abbrev micBytes : Nat := 4

/-- DBUF_BYTES (T4). -/
@[simp] abbrev dbufBytes : Nat := 256

/-- RBUF_BYTES (T4). -/
@[simp] abbrev rbufBytes : Nat := 16

/-- NF, the number of field descriptors and of field values (T4). -/
@[simp] abbrev nf : Nat := 16

/-- FVW, the width of one field value and of FDATA (T4). -/
@[simp] abbrev fvw : Nat := 128

/-- ETAB_N, the number of enum-table entries (T4). -/
@[simp] abbrev etabN : Nat := 64

/-- WINDOW, the size of the host window (T4, R70). -/
@[simp] abbrev window : Nat := 4096

/-- The constant of the register ID (R21). -/
@[simp] abbrev idValue : Word := 0x44475301#32

/-- The offset of RBUF in the window (T78); also the memory address of RBUF[0]. -/
@[simp] abbrev rbufBase : Nat := 0x080

/-- The offset of DBUF in the window (T78); also the memory address of DBUF[0]. -/
@[simp] abbrev dbufBase : Nat := 0x400

/-- Which 4096-byte slot of the host's address space the platform gave the window: OPEN (R70, U2), so it has no
body and no proof can rest on its value (DESIGN CHOICE, assumption log 4, safe). -/
opaque baseIndex : Nat

/-- BASE, a multiple of 4096 (R70). -/
def base : Nat := window * baseIndex

end Sys2Proof.Config
end

