-- ==== Sys2Proof/Syntax.lean ====
section
/-! DEFINITION. The fourteen commands of spec/30_encoding.md table T108, one constructor per row of
spec/opcode_table.json.  Operands are the two encoded operand fields of a command word, F and K (R101). -/

namespace Sys2Proof

/-- A command of the block (T108).  `f` is the field index F and `k` the enum member index K, as encoded. -/
inductive Instr where
  /-- NOP (R230). -/
  | nop
  /-- SRST (R231). -/
  | srst
  /-- ECB_ENC (R182). -/
  | ecbEnc
  /-- ECB_DEC (R183). -/
  | ecbDec
  /-- KS_XOR (R201). -/
  | ksXor
  /-- CMAC (R214). -/
  | cmac
  /-- MIC_DATA (R216). -/
  | micData
  /-- BF_ENCODE (R135). -/
  | bfEncode
  /-- BF_DECODE (R136). -/
  | bfDecode
  /-- BF_SET f (R139). -/
  | bfSet (f : Byte)
  /-- BF_GET f (R142). -/
  | bfGet (f : Byte)
  /-- BF_TEST f, k (R143). -/
  | bfTest (f k : Byte)
  /-- BF_ECHK f (R144). -/
  | bfEchk (f : Byte)
  /-- BF_CLR (R145). -/
  | bfClr
deriving DecidableEq, Repr

end Sys2Proof
end

