-- ==== Sys2Proof/WellFormed.lean ====
section
/-! DEFINITION. Which commands are well formed: the field index F is below NF = 16 (R101).  The member index K
takes every value 0 to 255: it is checked by BF_TEST itself, not at decode (R101). -/

namespace Sys2Proof

/-- F selects a descriptor: F < NF (R101). -/
def fieldIndexOk (f : Byte) : Bool := f.toNat < Config.nf

/-- The operand constraint of each command (R101, table T108). -/
def Instr.wellFormed : Instr → Bool
  | .nop => true
  | .srst => true
  | .ecbEnc => true
  | .ecbDec => true
  | .ksXor => true
  | .cmac => true
  | .micData => true
  | .bfEncode => true
  | .bfDecode => true
  | .bfSet f => fieldIndexOk f
  | .bfGet f => fieldIndexOk f
  | .bfTest f _ => fieldIndexOk f
  | .bfEchk f => fieldIndexOk f
  | .bfClr => true

end Sys2Proof
end

