-- ==== Sys2Proof/Decode.lean ====
section
/-! DEFINITION. Decoding of a command word (spec/30_encoding.md R100 to R103), total on every 32-bit word and
rejecting by name; then the encoder of table T108. -/

namespace Sys2Proof

/-- Bits 7:0, the opcode OP (R100). -/
def opField (w : Word) : Byte := w.extractLsb' 0 8

/-- Bits 15:8, the field index F (R100). -/
def fField (w : Word) : Byte := w.extractLsb' 8 8

/-- Bits 23:16, the enum member index K (R100). -/
def kField (w : Word) : Byte := w.extractLsb' 16 8

/-- Bits 31:24, Z, which must be zero (R100). -/
def zField (w : Word) : Byte := w.extractLsb' 24 8

/-- The three formats of R100, each with the command it builds from its operands. -/
inductive Format where
  /-- No operand: F = 0, K = 0, Z = 0. -/
  | z0 (i : Instr)
  /-- Operand F: K = 0, Z = 0. -/
  | f1 (mk : Byte → Instr)
  /-- Operands F and K: Z = 0. -/
  | fk (mk : Byte → Byte → Instr)

/-- Table T108: the row of an opcode, if it has one. -/
def opcodeRow (op : Byte) : Option Format :=
  match op.toNat with
  | 0x00 => some (.z0 .nop)
  | 0x01 => some (.z0 .srst)
  | 0x10 => some (.z0 .ecbEnc)
  | 0x11 => some (.z0 .ecbDec)
  | 0x12 => some (.z0 .ksXor)
  | 0x13 => some (.z0 .cmac)
  | 0x14 => some (.z0 .micData)
  | 0x20 => some (.z0 .bfEncode)
  | 0x21 => some (.z0 .bfDecode)
  | 0x22 => some (.f1 .bfSet)
  | 0x23 => some (.f1 .bfGet)
  | 0x24 => some (.fk .bfTest)
  | 0x25 => some (.f1 .bfEchk)
  | 0x26 => some (.z0 .bfClr)
  | _ => none

/-- Why a word is no command: the three decode checks of R102. -/
inductive DecodeError where
  /-- Check (1): OP is none of the fourteen opcodes; ILLCMD sub 1. -/
  | unknownOpcode
  /-- Check (2): a must-be-zero field is not zero; ILLCMD sub 2. -/
  | nonzeroField
  /-- Check (3): F is 16 or more in format F1 or FK; ILLCMD sub 3 with FIELD = F. -/
  | fieldIndex (f : Byte)
deriving DecidableEq, Repr

/-- The decode checks of R102, in their order. -/
def decode (w : Word) : Except DecodeError Instr :=
  match opcodeRow (opField w) with
  | none => .error .unknownOpcode
  | some (.z0 i) =>
    if zField w = 0 ∧ kField w = 0 ∧ fField w = 0 then .ok i else .error .nonzeroField
  | some (.f1 mk) =>
    if zField w = 0 ∧ kField w = 0 then
      if fieldIndexOk (fField w) then .ok (mk (fField w)) else .error (.fieldIndex (fField w))
    else .error .nonzeroField
  | some (.fk mk) =>
    if zField w = 0 then
      if fieldIndexOk (fField w) then .ok (mk (fField w) (kField w))
      else .error (.fieldIndex (fField w))
    else .error .nonzeroField

/-- The word with OP in bits 7:0, F in bits 15:8, K in bits 23:16 and Z = 0 in bits 31:24 (R100). -/
def commandWordOf (op f k : Byte) : Word := op.setWidth 32 ||| f.setWidth 32 <<< 8 ||| k.setWidth 32 <<< 16

/-- The word of a command (table T108). -/
def encode : Instr → Word
  | .nop => commandWordOf 0x00 0 0
  | .srst => commandWordOf 0x01 0 0
  | .ecbEnc => commandWordOf 0x10 0 0
  | .ecbDec => commandWordOf 0x11 0 0
  | .ksXor => commandWordOf 0x12 0 0
  | .cmac => commandWordOf 0x13 0 0
  | .micData => commandWordOf 0x14 0 0
  | .bfEncode => commandWordOf 0x20 0 0
  | .bfDecode => commandWordOf 0x21 0 0
  | .bfSet f => commandWordOf 0x22 f 0
  | .bfGet f => commandWordOf 0x23 f 0
  | .bfTest f k => commandWordOf 0x24 f k
  | .bfEchk f => commandWordOf 0x25 f 0
  | .bfClr => commandWordOf 0x26 0 0

/-- The command word whose bits, as spec/opcode_table.json numbers them, are the low `nbits` bits of `w`; the bits
above are 0.  A command is one 32-bit word (R100), handed over whole as the data of a write to CMD (R84), so no
byte order enters. -/
def tableWord (nbits w : Nat) : Word := BitVec.ofNat 32 (w % 2 ^ nbits)

/-- What the decoder reads from a row's word; none where it refuses. -/
def decodeTableWord (nbits w : Nat) : Option Instr :=
  match decode (tableWord nbits w) with
  | .ok i => some i
  | .error _ => none

end Sys2Proof
end

