-- ==== Sys2Proof/Machine/Bytes.lean ====
section
/-! DEFINITION. Byte strings (spec/00_scope.md R6) and the lanes of a window word (spec/20_memory.md R74). -/

namespace Sys2Proof.Machine

/-- `int_be(s)`: the number whose most significant byte is `s[0]` (R6). -/
def intBe : List Byte → Nat
  | [] => 0
  | b :: bs => b.toNat * 256 ^ bs.length + intBe bs

/-- `bytes_be(v, n)`: the n-byte string s with `int_be(s) = v mod 256^n` (R6). -/
def bytesBe (v : Nat) : Nat → List Byte
  | 0 => []
  | n + 1 => BitVec.ofNat 8 (v / 256 ^ n) :: bytesBe v n

/-- `bytes_le(v, n)`: least significant byte first (R6). -/
def bytesLe (v n : Nat) : List Byte := (bytesBe v n).reverse

/-- `zeros(n)` (R6). -/
def zeroBytes (n : Nat) : List Byte := List.replicate n 0

/-- `s[a..a+n]` (R6). -/
def slice (s : List Byte) (a n : Nat) : List Byte := (s.drop a).take n

/-- A byte string of 16 bytes as a block; a shorter string is filled with zero bytes. -/
def blockOf (s : List Byte) : Block := Vector.ofFn fun n => s.getD n.val 0

/-- `s xor t` on 16-byte strings (R6). -/
def xorBlock (s t : Block) : Block := Vector.ofFn fun n => s[n] ^^^ t[n]

/-- `s xor t` on byte strings of one length (R6); bytes beyond the shorter string are dropped. -/
def xorBytes (s t : List Byte) : List Byte := List.zipWith (fun a b => a ^^^ b) s t

/-- `zeros(16)`. -/
def zeroBlock : Block := Vector.replicate 16 0

/-- Lane i of a window word: bits 8i+7:8i (R74). -/
def lane (v : Word) (i : Nat) : Byte := v.extractLsb' (8 * i) 8

/-- The four lanes of a window word, lane 0 first (R74). -/
def lanes (v : Word) : List Byte := [lane v 0, lane v 1, lane v 2, lane v 3]

/-- The word whose lanes 0 to 3 are the four bytes (R74). -/
def wordOfLanes (b0 b1 b2 b3 : Byte) : Word :=
  b0.setWidth 32 ||| b1.setWidth 32 <<< 8 ||| b2.setWidth 32 <<< 16 ||| b3.setWidth 32 <<< 24

/-- Word j of a 16-byte array, `X[4j] | X[4j+1] << 8 | X[4j+2] << 16 | X[4j+3] << 24` (R74). -/
def blockWord (x : Block) (j : Fin 4) : Word :=
  wordOfLanes (x[4 * j.val]'(by omega)) (x[4 * j.val + 1]'(by omega)) (x[4 * j.val + 2]'(by omega))
    (x[4 * j.val + 3]'(by omega))

/-- A 16-byte array after an accepted write of v to its word j: `X[4j+i] <- v[8i+7:8i]` (R74). -/
def setBlockWord (x : Block) (j : Fin 4) (v : Word) : Block :=
  Vector.ofFn fun n => if n.val / 4 = j.val then lane v (n.val % 4) else x[n]

/-- Word j of a 128-bit number, bits 32j+31:32j (R39). -/
def valueWord (x : Value) (j : Fin 4) : Word := x.extractLsb' (32 * j.val) 32

/-- A 128-bit number with its word j replaced by v (R39). -/
def setValueWord (x : Value) (j : Fin 4) (v : Word) : Value :=
  (x &&& ~~~((0xFFFFFFFF#128) <<< (32 * j.val))) ||| (v.setWidth 128 <<< (32 * j.val))

/-- `bitlen(v)` (R5). -/
def bitlen (v : Nat) : Nat := if v = 0 then 0 else v.log2 + 1

end Sys2Proof.Machine
end

