-- ==== Sys2Proof/Machine/State.lean ====
section
/-! DEFINITION. The state of the block, spec/10_state.md table T20, as plain data, with the two fields that belong
to the model and not to the block: the pending steps of the environment and the last answer on the host port. -/

namespace Sys2Proof.Machine

/-- The byte buffers RBUF and DBUF of the window: pairs of a window offset and the byte it holds, offsets strictly
rising, and no byte 0 listed (0 is what both buffers hold after reset, R34, R37, R48; DESIGN CHOICE, assumption log 6,
safe). -/
abbrev Memory := List Host.Cell

/-- A field descriptor DESC[f], the used bits of its two words (R40). -/
structure Desc where
  /-- DESCA bits 6:0. -/
  lo : BitVec 7
  /-- DESCA bits 14:8. -/
  hi : BitVec 7
  /-- DESCA bits 18:16, the code of table R43. -/
  kind : BitVec 3
  /-- DESCB bits 15:0; 0 stands for no scale. -/
  scale : BitVec 16
  /-- DESCB bits 21:16. -/
  ebase : BitVec 6
  /-- DESCB bits 28:22. -/
  ecnt : BitVec 7
deriving DecidableEq, Repr

/-- The kinds of a descriptor (R43); codes 6 and 7 are not valid. -/
inductive Kind where
  | none | flag | numeric | enum | octets | reserved | invalid
deriving DecidableEq, Repr

/-- The command errors (R241, table T241). -/
inductive ErrCode where
  | format | range | invalidValue | key | illcmd | desc | len
deriving DecidableEq, Repr

/-- What `raise <code>(sub, field)` records (R7, R245). -/
structure CmdError where
  code : ErrCode
  sub : Byte
  field : Byte
deriving DecidableEq, Repr

/-- One step of the environment or the time of the engine's step (R8, R82): the steps an execution is made of. -/
inductive Event where
  /-- The host's `MemRead(addr, n)` (R71). -/
  | read (addr n : Nat)
  /-- The host's `MemWrite(addr, n, v)` (R72). -/
  | write (addr n : Nat) (v : Word)
  /-- An instruction fetch from the window, which the port answers as R73 says (DEDUCED, assumption log 9, safe). -/
  | fetch (addr n : Nat)
  /-- The moment at which the engine may take its completion step (R105, R281). -/
  | engine
  /-- The reset event (R270). -/
  | reset
deriving DecidableEq, Repr

/-- What the host port last answered (R71, R72). -/
inductive Answer where
  /-- No access has been made yet. -/
  | idle
  /-- A read returned this word. -/
  | data (w : Word)
  /-- A write was answered without a bus error: accepted, ignored or dropped (R72, R77). -/
  | written
  /-- The access was refused with a bus error (R73, R75). -/
  | busError
deriving DecidableEq, Repr

/-- Why a step stops with a fault.  No rule of the spec stops the block: a bus error is an answer on the port
(R240, R252) and a command error is recorded and the block goes on (R245).  So there is no constructor (DEDUCED,
assumption log 8, unsafe outside the window only). -/
inductive Fault where
deriving DecidableEq, Repr

/-- Why a step is refused. -/
inductive Refusal where
  /-- Raised by an arm of exec whose command has no meaning yet; safe.  No arm raises it. -/
  | notModelled (mnemonic : String)
deriving DecidableEq, Repr

/-- The architectural state of the block (R20, table T20) and the model's two fields. -/
structure State where
  /-- CMDR, the command word most recently accepted (R22). -/
  cmdr : Word
  /-- STATUS bit 0 (R23). -/
  busy : Bool
  /-- STATUS bit 1 (R23). -/
  done : Bool
  /-- STATUS bit 2 (R23). -/
  err : Bool
  /-- STATUS bit 3 (R23). -/
  werr : Bool
  /-- STATUS bit 4, the result of the last successful BF_TEST (R23, R45). -/
  t : Bool
  /-- IEN bit 1, DONE_IE (R24). -/
  doneIE : Bool
  /-- IEN bit 2, ERR_IE (R24). -/
  errIE : Bool
  /-- IEN bit 3, WERR_IE (R24). -/
  werrIE : Bool
  /-- ERRCODE bits 3:0 (R26). -/
  errcode : BitVec 4
  /-- ERRINFO bits 15:0: SUB in 15:8, FIELD in 7:0 (R27). -/
  errinfo : BitVec 16
  /-- KLEN (R28). -/
  klen : Byte
  /-- KEY[0..15] (R29). -/
  key : Block
  /-- DIR bit 0 (R30). -/
  dir : BitVec 1
  /-- DEVADDR (R31). -/
  devaddr : Word
  /-- FCNT bits 15:0 (R32). -/
  fcnt : BitVec 16
  /-- DLEN bits 15:0 (R33). -/
  dlen : BitVec 16
  /-- TAG[0..15] (R35). -/
  tag : Block
  /-- RLEN (R36). -/
  rlen : Byte
  /-- BFCTRL bit 0, LE (R38). -/
  le : Bool
  /-- BFCTRL bit 1, STRICT (R38). -/
  strict : Bool
  /-- FDATA (R39). -/
  fdata : Value
  /-- DESC[0..15] (R40). -/
  desc : Vector Desc 16
  /-- ETAB[0..63] (R41). -/
  etab : Vector Word 64
  /-- FV[0..15] (R42). -/
  fv : Vector Value 16
  /-- RBUF[0..15] at 0x080 (R37) and DBUF[0..255] at 0x400 (R34). -/
  mem : Memory
  /-- MODEL'S OWN: the steps still to come, oldest first (R82; DESIGN CHOICE, assumption log 1, safe). -/
  script : List Event
  /-- MODEL'S OWN: what the host port answered last (R71, R72; DESIGN CHOICE, assumption log 3,
  safe). -/
  portAnswer : Answer
deriving DecidableEq, Repr

/-- A descriptor word pair of zeros: KIND = NONE (R40). -/
def Desc.zero : Desc := { lo := 0, hi := 0, kind := 0, scale := 0, ebase := 0, ecnt := 0 }

/-- The reset state (R48, R270): every register, byte, descriptor word, ETAB word and FV is 0.  The model's own
fields: no step of the environment is pending and no access has been answered (DESIGN CHOICE, assumption log 12,
unsafe for claims about the run from reset alone). -/
def State.reset : State where
  cmdr := 0
  busy := false
  done := false
  err := false
  werr := false
  t := false
  doneIE := false
  errIE := false
  werrIE := false
  errcode := 0
  errinfo := 0
  klen := 0
  key := Vector.replicate 16 0
  dir := 0
  devaddr := 0
  fcnt := 0
  dlen := 0
  tag := Vector.replicate 16 0
  rlen := 0
  le := false
  strict := false
  fdata := 0
  desc := Vector.replicate 16 Desc.zero
  etab := Vector.replicate 64 0
  fv := Vector.replicate 16 0
  mem := []
  script := []
  portAnswer := .idle

end Sys2Proof.Machine
end

