-- ==== Sys2Proof/Machine/Ops.lean ====
section
/-! DEFINITION. The operations over memory and registers: the byte buffers, the named register updates, command
acceptance (R104), completion (R105), error entry (R245) and error return (R247), and the reset event (R270). -/

namespace Sys2Proof.Machine

/-! ## The byte buffers -/

/-- What an unlisted address reads as: both buffers hold 0 after reset (R34, R37, R48). -/
@[simp] abbrev unlistedByte : Byte := 0

/-- The byte at an address. -/
def readByte : Memory → Nat → Byte
  | [], _ => unlistedByte
  | (a, b) :: m, x => if x = a then b else readByte m x

/-- The memory with one byte written, in canonical form. -/
def writeByte : Memory → Nat → Byte → Memory
  | [], x, v => if v = unlistedByte then [] else [(x, v)]
  | (a, b) :: m, x, v =>
    if x < a then (if v = unlistedByte then (a, b) :: m else (x, v) :: (a, b) :: m)
    else if x = a then (if v = unlistedByte then m else (x, v) :: m)
    else (a, b) :: writeByte m x v

/-- The canonical form: addresses strictly rising, no entry equal to what an unlisted address reads as. -/
def Memory.wf : Memory → Bool
  | [] => true
  | (a, b) :: m => b != unlistedByte && m.all (fun c => decide (a < c.1)) && Memory.wf m

/-- The n bytes from an address up, lowest address first. -/
def readBytes (m : Memory) (a n : Nat) : List Byte := (List.range n).map fun k => readByte m (a + k)

/-- The memory with a byte string written from an address up. -/
def writeBytes : Memory → Nat → List Byte → Memory
  | m, _, [] => m
  | m, a, b :: bs => writeBytes (writeByte m a b) (a + 1) bs

/-- Whether an address belongs to RBUF or DBUF (T78). -/
def inBuffers (a : Nat) : Bool :=
  decide (Config.rbufBase ≤ a ∧ a < Config.rbufBase + Config.rbufBytes)
    || decide (Config.dbufBase ≤ a ∧ a < Config.dbufBase + Config.dbufBytes)

/-! ## Named updates -/

/-- The state with other buffer contents. -/
def setMem (m : Memory) (s : State) : State := { s with mem := m }

/-- TAG <- x (R35). -/
def setTag (x : Block) (s : State) : State := { s with tag := x }

/-- FDATA <- v (R39). -/
def setFdata (v : Value) (s : State) : State := { s with fdata := v }

/-- FV[f] <- v (R42). -/
def setFv (f : Fin 16) (v : Value) (s : State) : State := { s with fv := s.fv.set f.val v f.isLt }

/-- FV[0..15] <- v, all entries (R42). -/
def setAllFv (v : Vector Value 16) (s : State) : State := { s with fv := v }

/-- RLEN <- n (R36). -/
def setRlen (n : Byte) (s : State) : State := { s with rlen := n }

/-- STATUS.T <- b (R23). -/
def setT (b : Bool) (s : State) : State := { s with t := b }

/-- STATUS.WERR <- 1: all that a dropped write does (R77). -/
def setWerr (s : State) : State := { s with werr := true }

/-- The model's own: the steps still to come. -/
def setScript (es : List Event) (s : State) : State := { s with script := es }

/-- The model's own: the answer of the host port. -/
def setAnswer (a : Answer) (s : State) : State := { s with portAnswer := a }

/-! ## Error entry and return -/

/-- The ERRCODE number of an error (table T241). -/
def ErrCode.number : ErrCode → BitVec 4
  | .format => 1
  | .range => 2
  | .invalidValue => 3
  | .key => 4
  | .illcmd => 5
  | .desc => 6
  | .len => 7

/-- ERRINFO = `(SUB << 8) | FIELD` (R242, R245). -/
def errinfoOf (e : CmdError) : BitVec 16 := e.sub.setWidth 16 <<< 8 ||| e.field.setWidth 16

/-- Error entry, the whole of it: `ERRCODE <- code; ERRINFO <- (sub << 8) | field; STATUS.ERR <- 1;
STATUS.BUSY <- 0` (R245). -/
def raiseError (e : CmdError) (s : State) : State :=
  { s with errcode := e.code.number, errinfo := errinfoOf e, err := true, busy := false }

/-- Error return, by the host's write of STATUS bit 2: `STATUS.ERR <- 0; ERRCODE <- 0; ERRINFO <- 0` (R247). -/
def clearError (s : State) : State := { s with err := false, errcode := 0, errinfo := 0 }

/-! ## Acceptance and completion -/

/-- Acceptance of a command word: `CMDR <- w; STATUS.BUSY <- 1; STATUS.DONE <- 0` (R104). -/
def acceptCommand (w : Word) (s : State) : State := { s with cmdr := w, busy := true, done := false }

/-- The end of a command that raised nothing: `STATUS.DONE <- 1; STATUS.BUSY <- 0` (R105). -/
def finishCommand (s : State) : State := { s with done := true, busy := false }

/-- The outcome of a completion step: the error record alone, or all the command's updates and then DONE and BUSY
(R105, R245).  `s` is the state at completion and `r` what the command's rule gives on it. -/
def complete (s : State) (r : Except CmdError State) : Host.Outcome State Fault Refusal :=
  match r with
  | .error e => .next (raiseError e s)
  | .ok s' => .next (finishCommand s')

/-- The reset event: every piece of state of table T20 at its reset value (R270).  The environment's pending
steps and the last answer of the port are not the block's state and stay (DEDUCED, assumption log 7, unsafe for the
port's answers while rst_n is asserted). -/
def resetBlock (s : State) : State :=
  { State.reset with script := s.script, portAnswer := s.portAnswer }

/-- `CMDR`, the word the engine completes (R22, R84). -/
def pendingCommand (s : State) : Word := s.cmdr

/-- One check of a command: it passes, or raises (R244). -/
def require (c : Bool) (e : CmdError) : Except CmdError Unit := if c then .ok () else .error e

/-- Checks over the fields of a list in their order; the first failure is reported (R131, R136, R244). -/
def checkEach (check : Fin 16 → Except CmdError Unit) : List (Fin 16) → Except CmdError Unit
  | [] => .ok ()
  | f :: fs =>
    match check f with
    | .error e => .error e
    | .ok () => checkEach check fs

end Sys2Proof.Machine
end

