-- ==== Sys2Proof/Machine/Operands.lean ====
section
/-! DEFINITION. Every operand a command takes: the field index F with its descriptor (spec/30_encoding.md R101,
spec/40_bitfield.md R131 to R134), the enum members that K counts, and the key and data operands of the five
data commands with their checks (spec/41_aes_block.md R180, R181). -/

namespace Sys2Proof.Machine

/-! ## The field index and its descriptor -/

/-- "The error concerns no single field": FIELD = 0xFF (R27). -/
@[simp] abbrev noField : Byte := 0xFF

/-- The field index as the FIELD byte of an error (R27). -/
def fieldByte (f : Fin 16) : Byte := BitVec.ofNat 8 f.val

/-- The operand F: it must be below NF = 16, else ILLCMD sub 3 with FIELD = F (R101, R102).  Decoding has already
checked it for a command that reaches its meaning through `decode` (DEDUCED, assumption log 10, safe). -/
def fieldOperand (f : Byte) : Except CmdError (Fin 16) :=
  if h : f.toNat < 16 then .ok ⟨f.toNat, h⟩ else .error ⟨.illcmd, 3, f⟩

/-- The kind a descriptor's code stands for (R43). -/
def kindOf (d : Desc) : Kind :=
  match d.kind.toNat with
  | 0 => .none
  | 1 => .flag
  | 2 => .numeric
  | 3 => .enum
  | 4 => .octets
  | 5 => .reserved
  | _ => .invalid

/-- The width of a field, `HI - LO + 1` (R131). -/
def widthOf (d : Desc) : Nat := d.hi.toNat - d.lo.toNat + 1

/-- `s(d)`: the scale, where 0 stands for 1 (R134). -/
def scaleOf (d : Desc) : Nat := if d.scale = 0 then 1 else d.scale.toNat

/-- `check_desc(f)` on the descriptor d of slot f, its five items in order (R131). -/
def checkDesc (f : Fin 16) (d : Desc) : Except CmdError Unit :=
  if kindOf d = .invalid then .error ⟨.desc, 1, fieldByte f⟩
  else if kindOf d = .none then .ok ()
  else if d.hi < d.lo then .error ⟨.desc, 2, fieldByte f⟩
  else if kindOf d = .octets ∧ widthOf d % 8 ≠ 0 then .error ⟨.desc, 3, fieldByte f⟩
  else if kindOf d = .enum ∧ 64 < d.ebase.toNat + d.ecnt.toNat then .error ⟨.desc, 4, fieldByte f⟩
  else .ok ()

/-- Whether two descriptors are both in use and share a bit (R131). -/
def overlaps (d e : Desc) : Bool :=
  kindOf d != .none && kindOf e != .none && decide (e.lo ≤ d.hi) && decide (d.lo ≤ e.hi)

/-- The overlap test of slot f against every lower slot (R131). -/
def checkOverlap (desc : Vector Desc 16) (f : Fin 16) : Except CmdError Unit :=
  require (!(List.finRange 16).any fun g => decide (g < f) && overlaps desc[f] desc[g])
    ⟨.desc, 5, fieldByte f⟩

/-- `check_table()`: for f = 0 to 15, `check_desc(f)` and then the overlap test (R131). -/
def checkTable (desc : Vector Desc 16) : Except CmdError Unit :=
  checkEach
    (fun f => do
      checkDesc f desc[f]
      checkOverlap desc f)
    (List.finRange 16)

/-- `max_bit + 1`, or 0 when every descriptor is NONE (R132). -/
def recordBits (desc : Vector Desc 16) : Nat :=
  (List.finRange 16).foldl
    (fun n f => if kindOf desc[f] = .none then n else max n (desc[f].hi.toNat + 1)) 0

/-- `W`, the record's width in bytes (R132). -/
def recordWidth (desc : Vector Desc 16) : Nat := (recordBits desc + 7) / 8

/-! ## Enum members -/

/-- Member k of an enum field, `zext_128(ETAB[EBASE + k])` (R134, R143).  A descriptor that passed `check_desc`
and a k below ECNT name an entry that exists. -/
def enumMember (etab : Vector Word 64) (d : Desc) (k : Nat) : Option Value :=
  etab[d.ebase.toNat + k]?.map fun w => w.setWidth 128

/-- `member(f, v)`: some k in 0..ECNT-1 names the value v (R134). -/
def isMember (etab : Vector Word 64) (d : Desc) (v : Value) : Bool :=
  (List.range d.ecnt.toNat).any fun k => enumMember etab d k == some v

/-! ## The key and data operands -/

/-- The key check: KLEN = 16, else KEY sub 1 (R180). -/
def checkKey (s : State) : Except CmdError Unit :=
  require (s.klen.toNat == Config.keyBytes) ⟨.key, 1, noField⟩

/-- The length check of every data command: DLEN at most 256, else LEN sub 1 (R181). -/
def checkDataLength (s : State) : Except CmdError Unit :=
  require (decide (s.dlen.toNat ≤ Config.dbufBytes)) ⟨.len, 1, noField⟩

/-- The whole-block check of the ECB commands: DLEN a multiple of 16, else LEN sub 2 (R181). -/
def checkWholeBlocks (s : State) : Except CmdError Unit :=
  require (s.dlen.toNat % Config.blk == 0) ⟨.len, 2, noField⟩

/-- The length check of MIC_DATA: DLEN at most 255, else LEN sub 3 (R181, R216). -/
def checkMicLength (s : State) : Except CmdError Unit :=
  require (decide (s.dlen.toNat ≤ 255)) ⟨.len, 3, noField⟩

/-- `DBUF[0..DLEN]` (R33, R34). -/
def dataBytes (s : State) : List Byte := readBytes s.mem Config.dbufBase s.dlen.toNat

/-- `DBUF[0..len(bs)] <- bs`: bytes from there up are unchanged (R34). -/
def writeData (bs : List Byte) (s : State) : State := setMem (writeBytes s.mem Config.dbufBase bs) s

end Sys2Proof.Machine
end

