-- ==== Sys2Proof/Machine/Bitfield.lean ====
section
/-! DEFINITION. The bit-field packer and unpacker (spec/40_bitfield.md R130 to R146). -/

namespace Sys2Proof.Machine

/-! ## Field bits and field values (R134) -/

/-- The bits x that encode packs for a field: its value masked to its width, `& mask(w)` being the remainder
modulo 2^w; 0 for a field that contributes none (R134, R135). -/
def fieldBits (d : Desc) (v : Value) : Nat :=
  match kindOf d with
  | .flag => if v = 0 then 0 else 1
  | .numeric => (v.toNat * scaleOf d) % 2 ^ widthOf d
  | .enum => v.toNat % 2 ^ widthOf d
  | .octets => v.toNat % 2 ^ widthOf d
  | .none => 0
  | .reserved => 0
  | .invalid => 0

/-- The bits x of a field in the raw integer: `(raw >> LO) & mask(w)` (R134). -/
def extractBits (d : Desc) (raw : Nat) : Nat := (raw >>> d.lo.toNat) % 2 ^ widthOf d

/-- The value that decode gives a field with bits x (R134, R136). -/
def fieldValue (d : Desc) (x : Nat) : Value :=
  match kindOf d with
  | .flag => if x = 0 then 0 else 1
  | .numeric => BitVec.ofNat 128 (x / scaleOf d)
  | .enum => BitVec.ofNat 128 x
  | .octets => BitVec.ofNat 128 x
  | .none => 0
  | .reserved => 0
  | .invalid => 0

/-- What decode requires of a field with bits x: exact division for NUMERIC, a member for ENUM under STRICT
(R136). -/
def checkBits (etab : Vector Word 64) (strict : Bool) (f : Fin 16) (d : Desc) (x : Nat) :
    Except CmdError Unit :=
  match kindOf d with
  | .numeric => require (x % scaleOf d == 0) ⟨.format, 3, fieldByte f⟩
  | .enum => require (!strict || isMember etab d (BitVec.ofNat 128 x)) ⟨.format, 2, fieldByte f⟩
  | .flag => .ok ()
  | .octets => .ok ()
  | .none => .ok ()
  | .reserved => .ok ()
  | .invalid => .ok ()

/-! ## The raw integer and the record's bytes (R133) -/

/-- `to_bytes(raw)`: W bytes, reversed as a whole when LE = 1 (R133). -/
def toBytes (le : Bool) (w raw : Nat) : List Byte :=
  if le then (bytesBe raw w).reverse else bytesBe raw w

/-- `from_bytes(b)` (R133). -/
def fromBytes (le : Bool) (b : List Byte) : Nat := if le then intBe b.reverse else intBe b

/-- The raw integer of the record: each field's bits ORed into position (R134, R135). -/
def rawOfRecord (desc : Vector Desc 16) (fv : Vector Value 16) : Nat :=
  (List.finRange 16).foldl (fun raw f => raw ||| (fieldBits desc[f] fv[f] <<< desc[f].lo.toNat)) 0

/-- `RBUF[0..W]` (R136). -/
def recordBytes (s : State) : List Byte := readBytes s.mem Config.rbufBase (recordWidth s.desc)

/-! ## Whole-record commands -/

/-- BF_ENCODE (R135). -/
def execBfEncode (s : State) : Host.Outcome State Fault Refusal :=
  complete s do
    checkTable s.desc
    let w := recordWidth s.desc
    let b := toBytes s.le w (rawOfRecord s.desc s.fv)
    return setRlen (BitVec.ofNat 8 w)
      (setMem (writeBytes s.mem Config.rbufBase (b ++ zeroBytes (Config.rbufBytes - w))) s)

/-- BF_DECODE (R136). -/
def execBfDecode (s : State) : Host.Outcome State Fault Refusal :=
  complete s do
    checkTable s.desc
    require (decide (recordWidth s.desc ≤ s.rlen.toNat)) ⟨.format, 1, noField⟩
    let raw := fromBytes s.le (recordBytes s)
    checkEach (fun f => checkBits s.etab s.strict f s.desc[f] (extractBits s.desc[f] raw)) (List.finRange 16)
    return setAllFv (Vector.ofFn fun f => fieldValue s.desc[f] (extractBits s.desc[f] raw)) s

/-! ## Single-field commands -/

/-- The setter's test of a value by the field's kind (R139). -/
def checkSetter (etab : Vector Word 64) (f : Fin 16) (d : Desc) (v : Value) : Except CmdError Unit :=
  match kindOf d with
  | .flag => require (decide (v.toNat ≤ 1)) ⟨.range, 1, fieldByte f⟩
  | .numeric =>
    require (decide (bitlen (v.toNat * scaleOf d) ≤ widthOf d)) ⟨.range, 2, fieldByte f⟩
  | .enum => do
    require (isMember etab d v) ⟨.invalidValue, 1, fieldByte f⟩
    require (decide (bitlen v.toNat ≤ widthOf d)) ⟨.range, 4, fieldByte f⟩
  | .octets => require (decide (bitlen v.toNat ≤ widthOf d)) ⟨.range, 3, fieldByte f⟩
  | .none => .error ⟨.desc, 6, fieldByte f⟩
  | .reserved => .error ⟨.desc, 6, fieldByte f⟩
  | .invalid => .error ⟨.desc, 1, fieldByte f⟩

/-- BF_SET f (R139). -/
def execBfSet (f : Byte) (s : State) : Host.Outcome State Fault Refusal :=
  complete s do
    let f ← fieldOperand f
    checkDesc f s.desc[f]
    checkSetter s.etab f s.desc[f] s.fdata
    return setFv f s.fdata s

/-- BF_GET f (R142). -/
def execBfGet (f : Byte) (s : State) : Host.Outcome State Fault Refusal :=
  complete s do
    let f ← fieldOperand f
    checkDesc f s.desc[f]
    require (kindOf s.desc[f] != .none) ⟨.desc, 6, fieldByte f⟩
    return setFdata (if kindOf s.desc[f] = .reserved then 0 else s.fv[f]) s

/-- BF_TEST f, k (R143). -/
def execBfTest (f k : Byte) (s : State) : Host.Outcome State Fault Refusal :=
  complete s do
    let f ← fieldOperand f
    checkDesc f s.desc[f]
    require (kindOf s.desc[f] == .enum) ⟨.desc, 6, fieldByte f⟩
    require (decide (k.toNat < s.desc[f].ecnt.toNat)) ⟨.desc, 6, fieldByte f⟩
    return setT (enumMember s.etab s.desc[f] k.toNat == some s.fv[f]) s

/-- BF_ECHK f (R144). -/
def execBfEchk (f : Byte) (s : State) : Host.Outcome State Fault Refusal :=
  complete s do
    let f ← fieldOperand f
    checkDesc f s.desc[f]
    require (kindOf s.desc[f] == .enum) ⟨.desc, 6, fieldByte f⟩
    require (isMember s.etab s.desc[f] s.fv[f]) ⟨.format, 2, fieldByte f⟩
    return s

/-- BF_CLR (R145). -/
def execBfClr (s : State) : Host.Outcome State Fault Refusal :=
  complete s (.ok (setAllFv (Vector.replicate 16 0) s))

end Sys2Proof.Machine
end

