-- ==== Sys2Proof/Machine/Aes.lean ====
section
/-! DEFINITION. AES-128, spec/41_aes_block.md rules R170 to R179. -/

namespace Sys2Proof.Machine

/-- The table of R171: row r holds SBOX[16r] to SBOX[16r+15], first entry leftmost. -/
def sboxRows : List Nat :=
  [0x637c777bf26b6fc53001672bfed7ab76, 0xca82c97dfa5947f0add4a2af9ca472c0,
   0xb7fd9326363ff7cc34a5e5f171d83115, 0x04c723c31896059a071280e2eb27b275] ++
  [0x09832c1a1b6e5aa0523bd6b329e32f84, 0x53d100ed20fcb15b6acbbe394a4c58cf,
   0xd0efaafb434d338545f9027f503c9fa8, 0x51a3408f929d38f5bcb6da2110fff3d2] ++
  [0xcd0c13ec5f974417c4a77e3d645d1973, 0x60814fdc222a908846eeb814de5e0bdb,
   0xe0323a0a4906245cc2d3ac629195e479, 0xe7c8376d8dd54ea96c56f4ea657aae08] ++
  [0xba78252e1ca6b4c6e8dd741f4bbd8b8a, 0x703eb5664803f60e613557b986c11d9e,
   0xe1f8981169d98e949b1e87e9ce5528df, 0x8ca1890dbfe6426841992d0fb054bb16]

/-- The table of R172, laid out as `sboxRows`. -/
def invSboxRows : List Nat :=
  [0x52096ad53036a538bf40a39e81f3d7fb, 0x7ce339829b2fff87348e4344c4dee9cb,
   0x547b9432a6c2233dee4c950b42fac34e, 0x082ea16628d924b2765ba2496d8bd125] ++
  [0x72f8f66486689816d4a45ccc5d65b692, 0x6c704850fdedb9da5e154657a78d9d84,
   0x90d8ab008cbcd30af7e45805b8b34506, 0xd02c1e8fca3f0f02c1afbd0301138a6b] ++
  [0x3a9111414f67dcea97f2cfcef0b4e673, 0x96ac7422e7ad3585e2f937e81c75df6e,
   0x47f11a711d29c5896fb7620eaa18be1b, 0xfc563e4bc6d279209adbc0fe78cd5af4] ++
  [0x1fdda8338807c731b11210592780ec5f, 0x60517fa919b54a0d2de57a9f93c99cef,
   0xa0e03b4dae2af5b0c8ebbb3c83539961, 0x172b047eba77d626e169146355210c7d]

/-- Entry x of a table of sixteen rows of sixteen bytes. -/
def tableByte (rows : List Nat) (x : Byte) : Byte :=
  BitVec.ofNat 8 (rows.getD (x.toNat / 16) 0 >>> (8 * (15 - x.toNat % 16)))

/-- SBOX (R171). -/
def sbox (x : Byte) : Byte := tableByte sboxRows x

/-- INV_SBOX (R172). -/
def invSbox (x : Byte) : Byte := tableByte invSboxRows x

/-- Multiplication by the polynomial x modulo 0x11B (R174). -/
def xtime (a : Byte) : Byte := if a.getLsbD 7 then (a <<< 1) ^^^ 0x1B#8 else a <<< 1

/-- The sum of `xtime^i(a)` over the i below n with `b[i] = 1`. -/
def gmulSteps : Nat → Byte → Byte → Byte
  | 0, _, _ => 0
  | n + 1, a, b => (if b.getLsbD 0 then a else 0) ^^^ gmulSteps n (xtime a) (b >>> 1)

/-- The product `a • b` (R174). -/
def gmul (a b : Byte) : Byte := gmulSteps 8 a b

/-- RCON[j], j from 1 to 10 (R173). -/
def rcon (j : Nat) : Byte := [0x01#8, 0x02, 0x04, 0x08, 0x10, 0x20, 0x40, 0x80, 0x1b, 0x36].getD (j - 1) 0

/-! ## The round transformations (R175) -/

/-- The byte in row r and column c, each modulo 4: `s[r + 4c]` (R175). -/
def cell (s : Block) (r c : Nat) : Byte := s[r % 4 + 4 * (c % 4)]'(by omega)

/-- The state whose byte in row r and column c is `g r c` (R175). -/
def ofCells (g : Nat → Nat → Byte) : Block := Vector.ofFn fun n => g (n.val % 4) (n.val / 4)

/-- SubBytes (R175). -/
def subBytes (s : Block) : Block := Vector.ofFn fun n => sbox s[n]

/-- InvSubBytes (R175). -/
def invSubBytes (s : Block) : Block := Vector.ofFn fun n => invSbox s[n]

/-- ShiftRows: row r rotates left by r columns (R175). -/
def shiftRows (s : Block) : Block := ofCells fun r c => cell s r (c + r)

/-- InvShiftRows: row r rotates right by r columns (R175). -/
def invShiftRows (s : Block) : Block := ofCells fun r c => cell s r (c + 4 - r)

/-- MixColumns: in row r of a column, `02•a_r xor 03•a_(r+1) xor a_(r+2) xor a_(r+3)`, row numbers modulo 4,
which is the four lines of R175 read along the diagonal. -/
def mixColumns (s : Block) : Block :=
  ofCells fun r c =>
    gmul (cell s r c) 0x02 ^^^ gmul (cell s (r + 1) c) 0x03 ^^^ cell s (r + 2) c ^^^ cell s (r + 3) c

/-- InvMixColumns: in row r, `0e•a_r xor 0b•a_(r+1) xor 0d•a_(r+2) xor 09•a_(r+3)` (R175). -/
def invMixColumns (s : Block) : Block :=
  ofCells fun r c =>
    gmul (cell s r c) 0x0e ^^^ gmul (cell s (r + 1) c) 0x0b ^^^ gmul (cell s (r + 2) c) 0x0d
      ^^^ gmul (cell s (r + 3) c) 0x09

/-! ## Key expansion (R177) -/

/-- A word of four bytes of the key schedule. -/
abbrev KeyWord := Vector Byte 4

/-- RotWord: `(a1, a2, a3, a0)` (R177). -/
def rotWord (w : KeyWord) : KeyWord := Vector.ofFn fun n => w[(n.val + 1) % 4]'(by omega)

/-- SubWord: SBOX on each byte (R177). -/
def subWord (w : KeyWord) : KeyWord := Vector.ofFn fun n => sbox w[n]

/-- `t xor (RCON[j], 00, 00, 00)` (R177). -/
def addRcon (j : Nat) (w : KeyWord) : KeyWord :=
  Vector.ofFn fun n => if n.val = 0 then w[n] ^^^ rcon j else w[n]

/-- Byte by byte xor of two key-schedule words (R177). -/
def xorWord (v w : KeyWord) : KeyWord := Vector.ofFn fun n => v[n] ^^^ w[n]

/-- The word `w[i]` for i from 4 to 43, given `w[i-1]` and `w[i-4]` (R177). -/
def nextKeyWord (i : Nat) (prev four : KeyWord) : KeyWord :=
  xorWord four (if i % 4 = 0 then addRcon (i / 4) (subWord (rotWord prev)) else prev)

/-- `n` further words from index i on, given the last four words, oldest first (R177). -/
def moreKeyWords : Nat → Nat → KeyWord → KeyWord → KeyWord → KeyWord → List KeyWord
  | 0, _, _, _, _, _ => []
  | n + 1, i, a, b, c, d =>
    let e := nextKeyWord i d a
    e :: moreKeyWords n (i + 1) b c d e

/-- `w[j]` for j from 0 to 3: `K[4j..4j+4]` (R177). -/
def keyQuarter (k : Block) (j : Nat) : KeyWord := Vector.ofFn fun n => cell k n.val j

/-- The 44 words `w[0..43]` (R177). -/
def keyWords (k : Block) : List KeyWord :=
  keyQuarter k 0 :: keyQuarter k 1 :: keyQuarter k 2 :: keyQuarter k 3 ::
    moreKeyWords 40 4 (keyQuarter k 0) (keyQuarter k 1) (keyQuarter k 2) (keyQuarter k 3)

/-- `rk[r] = w[4r] || w[4r+1] || w[4r+2] || w[4r+3]` (R177). -/
def roundKey (ws : List KeyWord) (r : Nat) : Block :=
  ofCells fun n c => (ws.getD (4 * r + c) (Vector.replicate 4 0))[n % 4]'(by omega)

/-! ## The cipher and the inverse cipher -/

/-- Rounds 1 to n of the cipher (R178). -/
def encRounds (rk : Nat → Block) : Nat → Block → Block
  | 0, s => s
  | n + 1, s => xorBlock (mixColumns (shiftRows (subBytes (encRounds rk n s)))) (rk (n + 1))

/-- `AES_ENC(K, B)` (R178). -/
def aesEnc (k b : Block) : Block :=
  let rk := roundKey (keyWords k)
  xorBlock (shiftRows (subBytes (encRounds rk 9 (xorBlock b (rk 0))))) (rk 10)

/-- Rounds n down to 1 of the inverse cipher (R179). -/
def decRounds (rk : Nat → Block) : Nat → Block → Block
  | 0, s => s
  | n + 1, s => decRounds rk n (invMixColumns (xorBlock (invSubBytes (invShiftRows s)) (rk (n + 1))))

/-- `AES_DEC(K, C)` (R179). -/
def aesDec (k c : Block) : Block :=
  let rk := roundKey (keyWords k)
  xorBlock (invSubBytes (invShiftRows (decRounds rk 9 (xorBlock c (rk 10))))) (rk 0)

end Sys2Proof.Machine
end

