-- ==== Sys2Proof/Machine/Cipher.lean ====
section
/-! DEFINITION. The ECB commands ECB_ENC and ECB_DEC (spec/41_aes_block.md R180 to R185). -/

namespace Sys2Proof.Machine

/-- Block j (from 0) of a byte string (R182). -/
def dataBlock (bs : List Byte) (j : Nat) : Block := blockOf (slice bs (16 * j) 16)

/-- A block function applied to each whole block of a byte string, block by block, with no chaining (R182). -/
def mapBlocks (g : Block → Block) (bs : List Byte) : List Byte :=
  (List.range (bs.length / 16)).flatMap fun j => (g (dataBlock bs j)).toList

/-- What the two ECB commands share: the checks KEY 1, LEN 1, LEN 2, and the in-place replacement (R182, R183). -/
def ecbResult (g : Block → Block → Block) (s : State) : Except CmdError State := do
  checkKey s
  checkDataLength s
  checkWholeBlocks s
  return writeData (mapBlocks (g s.key) (dataBytes s)) s

/-- ECB_ENC (R182). -/
def execEcbEnc (s : State) : Host.Outcome State Fault Refusal := complete s (ecbResult aesEnc s)

/-- ECB_DEC (R183). -/
def execEcbDec (s : State) : Host.Outcome State Fault Refusal := complete s (ecbResult aesDec s)

end Sys2Proof.Machine
end

