-- ==== Sys2Proof/Machine/Keystream.lean ====
section
/-! DEFINITION. The payload keystream command KS_XOR (spec/42_keystream.md R200 to R204). -/

namespace Sys2Proof.Machine

/-- The 16-byte layout shared by A_i (R200) and B0 (R215): first byte, DIR in byte 5, DEVADDR and FCNT little-endian
in bytes 6 to 13, last byte. -/
def counterBlock (first : Byte) (s : State) (last : Byte) : Block :=
  blockOf
    ([first, 0, 0, 0, 0, s.dir.setWidth 8] ++ bytesLe s.devaddr.toNat 4 ++ bytesLe s.fcnt.toNat 4 ++ [0, last])

/-- The counter block A_i (R200). -/
def blockA (s : State) (i : Nat) : Block := counterBlock 0x01 s (BitVec.ofNat 8 i)

/-- The first n keystream blocks, `AES_ENC(K, A_i)` for i = 1 to n, as one byte string (R201). -/
def keystream (s : State) (n : Nat) : List Byte :=
  (List.range n).flatMap fun j => (aesEnc s.key (blockA s (j + 1))).toList

/-- `ceil(len / 16)` (R201, R212). -/
def blockCount (len : Nat) : Nat := (len + 15) / 16

/-- KS_XOR (R201): the last keystream block is truncated to the bytes left. -/
def execKsXor (s : State) : Host.Outcome State Fault Refusal :=
  complete s do
    checkKey s
    checkDataLength s
    return writeData (xorBytes (dataBytes s) (keystream s (blockCount s.dlen.toNat))) s

end Sys2Proof.Machine
end

