-- ==== Sys2Proof/Machine/Mac.lean ====
section
/-! DEFINITION. AES-CMAC and the commands CMAC and MIC_DATA (spec/43_cmac_mic.md R210 to R217). -/

namespace Sys2Proof.Machine

/-- `dbl(X)`: doubling in GF(2^128) with Rb = 0x87 (R211). -/
def dbl (x : Block) : Block :=
  let n := intBe x.toList
  blockOf (bytesBe (((n <<< 1) % 2 ^ 128) ^^^ (if n.testBit 127 then 0x87 else 0)) 16)

/-- `L = AES_ENC(K, zeros(16))` (R211). -/
def cmacL (k : Block) : Block := aesEnc k zeroBlock

/-- `K1 = dbl(L)` (R211). -/
def cmacK1 (k : Block) : Block := dbl (cmacL k)

/-- `K2 = dbl(K1)` (R211). -/
def cmacK2 (k : Block) : Block := dbl (cmacK1 k)

/-- The number n of blocks of a message of that length: at least one (R212). -/
def cmacBlocks (len : Nat) : Nat := if len = 0 then 1 else blockCount len

/-- The last block: xor K1 when complete, else padded with 0x80 and zeros and xor K2 (R212). -/
def cmacLast (k : Block) (msg : List Byte) : Block :=
  let last := msg.drop (16 * (cmacBlocks msg.length - 1))
  if msg.length ≠ 0 ∧ msg.length % 16 = 0 then xorBlock (blockOf last) (cmacK1 k)
  else xorBlock (blockOf (last ++ [0x80] ++ zeroBytes (15 - last.length))) (cmacK2 k)

/-- The chain over the first n whole blocks: `X := AES_ENC(K, X xor M[16(i-1)..16i])` from `X = zeros(16)` (R212). -/
def cmacChain (k : Block) (msg : List Byte) : Nat → Block
  | 0 => zeroBlock
  | n + 1 => aesEnc k (xorBlock (cmacChain k msg n) (dataBlock msg n))

/-- `CMAC(K, M)` (R212). -/
def cmac (k : Block) (msg : List Byte) : Block :=
  aesEnc k (xorBlock (cmacChain k msg (cmacBlocks msg.length - 1)) (cmacLast k msg))

/-- The Message Integrity Code: the first four bytes of the tag (R213). -/
def micOf (tag : Block) : List Byte := tag.toList.take Config.micBytes

/-- The block B0 for a message of `mlen` bytes (R215). -/
def blockB0 (s : State) (mlen : Nat) : Block := counterBlock 0x49 s (BitVec.ofNat 8 mlen)

/-- CMAC (R214). -/
def execCmac (s : State) : Host.Outcome State Fault Refusal :=
  complete s do
    checkKey s
    checkDataLength s
    return setTag (cmac s.key (dataBytes s)) s

/-- MIC_DATA (R216). -/
def execMicData (s : State) : Host.Outcome State Fault Refusal :=
  complete s do
    checkKey s
    checkDataLength s
    checkMicLength s
    return setTag (cmac s.key ((blockB0 s s.dlen.toNat).toList ++ dataBytes s)) s

end Sys2Proof.Machine
end

