-- ==== Sys2Proof/Machine/System.lean ====
section
/-! DEFINITION. The system commands NOP and SRST (spec/44_system.md R230, R231). -/

namespace Sys2Proof.Machine

/-- NOP (R230): nothing but the command protocol. -/
def execNop (s : State) : Host.Outcome State Fault Refusal := complete s (.ok s)

/-- SRST (R231): the reset state; the one command whose success does not set DONE (R105). -/
def execSrst (s : State) : Host.Outcome State Fault Refusal := .next (resetBlock s)

end Sys2Proof.Machine
end

