-- ==== Sys2Proof/Machine/Dispatch.lean ====
section
/-! DEFINITION. The meaning of every command of table T108 on the state at its completion (R105): one arm each. -/

namespace Sys2Proof.Machine

def exec (i : Instr) (s : State) : Host.Outcome State Fault Refusal :=
  match i with
  | .nop => Sys2Proof.Machine.execNop s
  | .srst => Sys2Proof.Machine.execSrst s
  | .ecbEnc => Sys2Proof.Machine.execEcbEnc s
  | .ecbDec => Sys2Proof.Machine.execEcbDec s
  | .ksXor => Sys2Proof.Machine.execKsXor s
  | .cmac => Sys2Proof.Machine.execCmac s
  | .micData => Sys2Proof.Machine.execMicData s
  | .bfEncode => Sys2Proof.Machine.execBfEncode s
  | .bfDecode => Sys2Proof.Machine.execBfDecode s
  | .bfSet f => Sys2Proof.Machine.execBfSet f s
  | .bfGet f => Sys2Proof.Machine.execBfGet f s
  | .bfTest f k => Sys2Proof.Machine.execBfTest f k s
  | .bfEchk f => Sys2Proof.Machine.execBfEchk f s
  | .bfClr => Sys2Proof.Machine.execBfClr s

end Sys2Proof.Machine
end

