-- ==== Sys2Proof/Machine/Engine.lean ====
section
/-! DEFINITION. The engine's completion step (spec/30_encoding.md R102, R105). -/

namespace Sys2Proof.Machine

/-- The error that a failed decode check raises (R102). -/
def illegalCommand : DecodeError → CmdError
  | .unknownOpcode => ⟨.illcmd, 1, 0xFF⟩
  | .nonzeroField => ⟨.illcmd, 2, 0xFF⟩
  | .fieldIndex f => ⟨.illcmd, 3, f⟩

/-- Completion: the decode checks of CMDR first, then the command's rule on the current state (R105). -/
def completionStep (s : State) : Host.Outcome State Fault Refusal :=
  match decode (pendingCommand s) with
  | .error e => complete s (.error (illegalCommand e))
  | .ok i => exec i s

/-- What the engine does when it may act: the completion step if BUSY = 1; with BUSY = 0 it has no enabled step and
nothing changes (R105). -/
def engineStep (s : State) : Host.Outcome State Fault Refusal :=
  if s.busy then completionStep s else .next s

end Sys2Proof.Machine
end

