-- ==== Sys2Proof/Machine/Flags.lean ====
section
/-! DEFINITION. STATUS and IEN as the host sees them, the write-one-to-clear bits of STATUS, and the interrupt
output (spec/10_state.md R23, R24, R45; spec/60_exceptions.md R247, R250). -/

namespace Sys2Proof.Machine

/-- A bit at place i of a word whose other bits are 0. -/
def bitAt (b : Bool) (i : Nat) : Word := (if b then 1#32 else 0#32) <<< i

/-- STATUS as a word: BUSY, DONE, ERR, WERR, T in bits 0 to 4, bits 31:5 zero (R23). -/
def statusWord (s : State) : Word :=
  bitAt s.busy 0 ||| bitAt s.done 1 ||| bitAt s.err 2 ||| bitAt s.werr 3 ||| bitAt s.t 4

/-- IEN as a word: DONE_IE, ERR_IE, WERR_IE in bits 1 to 3, the others zero (R24). -/
def ienWord (s : State) : Word := bitAt s.doneIE 1 ||| bitAt s.errIE 2 ||| bitAt s.werrIE 3

/-- An accepted write of IEN (R24). -/
def writeIen (v : Word) (s : State) : State :=
  { s with doneIE := v[1], errIE := v[2], werrIE := v[3] }

/-- A write of STATUS: a one in bit 1 clears DONE, in bit 2 ERR with ERRCODE and ERRINFO (R247), in bit 3 WERR;
nothing else has an effect (R23). -/
def writeStatus (v : Word) (s : State) : State :=
  let s := if v[2] then clearError s else s
  { s with done := s.done && !v[1], werr := s.werr && !v[3] }

/-- The interrupt output: a function of STATUS and IEN, with no latch of its own (R250). -/
def irq (s : State) : Bool :=
  (s.done && s.doneIE) || (s.err && s.errIE) || (s.werr && s.werrIE)

end Sys2Proof.Machine
end

