-- ==== Sys2Proof/Machine/HostPort.lean ====
section
/-! DEFINITION. The host port: the address map (spec/20_memory.md table T78), MemRead (R71), MemWrite (R72),
dropped writes (R77), and bus errors (R73, R75). -/

namespace Sys2Proof.Machine

/-- The registers of the window (T78). -/
inductive Reg where
  | id | cmd | status | ien | errcode | errinfo
  | klen | dir | devaddr | fcnt | dlen | rlen | bfctrl
  | key (j : Fin 4) | tag (j : Fin 4) | fdata (j : Fin 4) | rbuf (j : Fin 4)
  | descA (f : Fin 16) | descB (f : Fin 16) | etab (n : Fin 64) | dbuf (j : Fin 64)
deriving DecidableEq, Repr

/-- The offset of a register (T78). -/
def offsetOf : Reg → Nat
  | .id => 0x000
  | .cmd => 0x004
  | .status => 0x008
  | .ien => 0x00C
  | .errcode => 0x010
  | .errinfo => 0x014
  | .klen => 0x020
  | .dir => 0x024
  | .devaddr => 0x028
  | .fcnt => 0x02C
  | .dlen => 0x030
  | .rlen => 0x034
  | .bfctrl => 0x038
  | .key j => 0x040 + 4 * j.val
  | .tag j => 0x050 + 4 * j.val
  | .fdata j => 0x060 + 4 * j.val
  | .rbuf j => 0x080 + 4 * j.val
  | .descA f => 0x100 + 8 * f.val
  | .descB f => 0x104 + 8 * f.val
  | .etab n => 0x200 + 4 * n.val
  | .dbuf j => 0x400 + 4 * j.val

/-- The registers of the window that stand alone, in the order of T78. -/
def singleRegs : List Reg :=
  [.id, .cmd, .status, .ien, .errcode, .errinfo, .klen, .dir, .devaddr, .fcnt, .dlen, .rlen, .bfctrl]

/-- Every register of the window (T78). -/
def allRegs : List Reg :=
  singleRegs ++ (List.finRange 4).map .key ++ (List.finRange 4).map .tag ++ (List.finRange 4).map .fdata ++
    (List.finRange 4).map .rbuf ++ (List.finRange 16).map .descA ++ (List.finRange 16).map .descB ++
    (List.finRange 64).map .etab ++ (List.finRange 64).map .dbuf

/-- The register at an offset of the window, none where nothing is mapped (T78, R75). -/
def regAt (off : Nat) : Option Reg := allRegs.find? fun r => offsetOf r == off

/-- The register an access of n bytes at an address reaches: only a 32-bit access at a multiple of 4 inside the
window reaches one (R70, R71, R73). -/
def accessedReg (addr n : Nat) : Option Reg :=
  if n = 4 ∧ addr % 4 = 0 ∧ Config.base ≤ addr then regAt (addr - Config.base) else none

/-! ## Register values -/

/-- DESCA[f] as a word (R40). -/
def descAWord (d : Desc) : Word := d.kind.setWidth 32 <<< 16 ||| d.hi.setWidth 32 <<< 8 ||| d.lo.setWidth 32

/-- DESCB[f] as a word (R40). -/
def descBWord (d : Desc) : Word :=
  d.ecnt.setWidth 32 <<< 22 ||| d.ebase.setWidth 32 <<< 16 ||| d.scale.setWidth 32

/-- A descriptor after a write of its DESCA word (R40). -/
def setDescA (v : Word) (d : Desc) : Desc :=
  { d with lo := v.extractLsb' 0 7, hi := v.extractLsb' 8 7, kind := v.extractLsb' 16 3 }

/-- A descriptor after a write of its DESCB word (R40). -/
def setDescB (v : Word) (d : Desc) : Desc :=
  { d with scale := v.extractLsb' 0 16, ebase := v.extractLsb' 16 6, ecnt := v.extractLsb' 22 7 }

/-- The word of the byte buffers at an address, lowest lane first (R74). -/
def memWord (m : Memory) (a : Nat) : Word :=
  wordOfLanes (readByte m a) (readByte m (a + 1)) (readByte m (a + 2)) (readByte m (a + 3))

/-- The value a read returns (R71, and the rule of each register in spec/10_state.md). -/
def readReg (s : State) : Reg → Word
  | .id => Config.idValue
  | .cmd => s.cmdr
  | .status => statusWord s
  | .ien => ienWord s
  | .errcode => s.errcode.setWidth 32
  | .errinfo => s.errinfo.setWidth 32
  | .klen => s.klen.setWidth 32
  | .dir => s.dir.setWidth 32
  | .devaddr => s.devaddr
  | .fcnt => s.fcnt.setWidth 32
  | .dlen => s.dlen.setWidth 32
  | .rlen => s.rlen.setWidth 32
  | .bfctrl => bitAt s.le 0 ||| bitAt s.strict 1
  | .key _ => 0
  | .tag j => blockWord s.tag j
  | .fdata j => valueWord s.fdata j
  | .rbuf j => memWord s.mem (offsetOf (.rbuf j))
  | .descA f => descAWord s.desc[f]
  | .descB f => descBWord s.desc[f]
  | .etab n => s.etab[n]
  | .dbuf j => memWord s.mem (offsetOf (.dbuf j))

/-- What an accepted write does (R72, and the rule of each register); a write to ID, ERRCODE, ERRINFO or TAG is
ignored (R76). -/
def writeReg (r : Reg) (v : Word) (s : State) : State :=
  match r with
  | .id => s
  | .cmd => acceptCommand v s
  | .status => writeStatus v s
  | .ien => writeIen v s
  | .errcode => s
  | .errinfo => s
  | .klen => { s with klen := v.setWidth 8 }
  | .dir => { s with dir := v.setWidth 1 }
  | .devaddr => { s with devaddr := v }
  | .fcnt => { s with fcnt := v.setWidth 16 }
  | .dlen => { s with dlen := v.setWidth 16 }
  | .rlen => setRlen (v.setWidth 8) s
  | .bfctrl => { s with le := v[0], strict := v[1] }
  | .key j => { s with key := setBlockWord s.key j v }
  | .tag _ => s
  | .fdata j => setFdata (setValueWord s.fdata j v) s
  | .rbuf j => setMem (writeBytes s.mem (offsetOf (.rbuf j)) (lanes v)) s
  | .descA f => { s with desc := s.desc.set f.val (setDescA v s.desc[f]) f.isLt }
  | .descB f => { s with desc := s.desc.set f.val (setDescB v s.desc[f]) f.isLt }
  | .etab n => { s with etab := s.etab.set n.val v n.isLt }
  | .dbuf j => setMem (writeBytes s.mem (offsetOf (.dbuf j)) (lanes v)) s

/-- Whether a write to a register is dropped: (a) BUSY = 1 and the register is neither STATUS nor IEN; (b) the
register is CMD, BUSY = 0 and ERR = 1 (R77). -/
def isDropped (r : Reg) (s : State) : Bool :=
  (s.busy && decide (r ≠ .status ∧ r ≠ .ien)) || (decide (r = .cmd) && !s.busy && s.err)

/-! ## The host's two primitives -/

/-- `MemRead(addr, n)`: the register's value or a bus error; no state of the block changes (R71). -/
def memRead (addr n : Nat) (s : State) : State :=
  match accessedReg addr n with
  | some r => setAnswer (.data (readReg s r)) s
  | none => setAnswer .busError s

/-- `MemWrite(addr, n, v)`: dropped, accepted (or accepted and ignored), or a bus error (R72). -/
def memWrite (addr n : Nat) (v : Word) (s : State) : State :=
  match accessedReg addr n with
  | some r => setAnswer .written (if isDropped r s then setWerr s else writeReg r v s)
  | none => setAnswer .busError s

/-- An instruction fetch from the window: a bus error, with no effect on the block (R73). -/
def memFetch (s : State) : State := setAnswer .busError s

end Sys2Proof.Machine
end

