-- ==== Sys2Proof/Machine/Agents.lean ====
section
/-! DEFINITION. The atomic steps an execution is a sequence of: a host read, a host write, a completion, a reset
(spec/00_scope.md R8, spec/20_memory.md R82), and which one comes next. -/

namespace Sys2Proof.Machine

/-- One atomic step (R82). -/
def runEvent (e : Event) (s : State) : Host.Outcome State Fault Refusal :=
  match e with
  | .read addr n => .next (memRead addr n s)
  | .write addr n v => .next (memWrite addr n v s)
  | .fetch _ _ => .next (memFetch s)
  | .engine => engineStep s
  | .reset => .next (resetBlock s)

/-- The next step of the block and its environment: the oldest pending event; when none is pending, the engine
completes the command in progress, if there is one (R281 (a): a busy block always completes). -/
def nextStep (s : State) : Host.Outcome State Fault Refusal :=
  match s.script with
  | [] => runEvent .engine s
  | e :: es => runEvent e (setScript es s)

/-- The command word in place, accepted, with the completion step next: what the fetch of the next command takes on
a block that fetches nothing (R25, R84, R104; DESIGN CHOICE, assumption log 5, unsafe where a write of CMD would have
been dropped). -/
def placeCommand (w : Word) (s : State) : State := setScript (.engine :: s.script) (acceptCommand w s)

end Sys2Proof.Machine
end

