-- ==== Sys2Proof/Machine/Step.lean ====
section
/-! DEFINITION. The step of the machine, and where the next command word is placed. -/

namespace Sys2Proof.Machine

/-- One step: the next atomic step of the execution (R82). -/
def step (s : State) : Host.Outcome State Fault Refusal := nextStep s

/-- The state whose very next step completes the command whose opcode-table bits are `w`. -/
def State.withFetchWord (s : State) (nbits w : Nat) : State := placeCommand (tableWord nbits w) s

end Sys2Proof.Machine
end

