-- ==== Sys2Proof/Machine/Script.lean ====
section
/-! DEFINITION. The host-script notation of spec/30_encoding.md R110 and R111: a line expands to the host accesses
it stands for, and adds nothing to the hardware. -/

namespace Sys2Proof.Machine

/-- A line of a host script (R110) or a pseudo-line (R111).  `wait` carries how many polls find BUSY = 1 before the
completion: the latency is open (R281), so every number is a legal run (DEDUCED, assumption log 11, safe); `fset` and
`fget` hold such a `wait`.  `lddbuf` and `ldrbuf` take a byte string of any length (DESIGN CHOICE, assumption log 14,
unsafe beyond 256 and 16 bytes). -/
inductive ScriptLine where
  | wr (r : Reg) (v : Word)
  | rd (r : Reg)
  | cmd (i : Instr)
  | wait (polls : Nat)
  | ldkey (k : Block)
  | lddbuf (bs : List Byte)
  | ldrbuf (bs : List Byte)
  | desc (f : Fin 16) (d : Desc)
  | fset (f : Fin 16) (v : Value) (polls : Nat)
  | fget (f : Fin 16) (polls : Nat)
  | clrerr
  | jaenc
  | jadec
deriving DecidableEq, Repr

/-- `wr <reg>, v`: one 32-bit write at the register's address (R110). -/
def wrEvent (r : Reg) (v : Word) : Event := .write (Config.base + offsetOf r) 4 v

/-- `rd <reg>`: one 32-bit read at the register's address (R110). -/
def rdEvent (r : Reg) : Event := .read (Config.base + offsetOf r) 4

/-- `wait`: polls of STATUS that find BUSY = 1, the completion, and the poll that finds BUSY = 0 (R110).  That the
completion falls inside the wait is the model's choice: R281 allows it before any access that follows the command, also
before lines that stand between `cmd` and `wait` (DESIGN CHOICE, assumption log 13, unsafe for a claim over all sequences
of expanded lines; State's own list of steps has every placing). -/
def waitEvents (polls : Nat) : List Event :=
  List.replicate polls (rdEvent .status) ++ [.engine, rdEvent .status]

/-- A byte string as window words, a last partial word filled with zero bytes (R111). -/
def wordsOf (bs : List Byte) : List Word :=
  (List.range ((bs.length + 3) / 4)).map fun j =>
    wordOfLanes (bs.getD (4 * j) 0) (bs.getD (4 * j + 1) 0) (bs.getD (4 * j + 2) 0) (bs.getD (4 * j + 3) 0)

/-- Writes of consecutive words from an offset of the window up. -/
def writeWords : Nat → List Word → List Event
  | _, [] => []
  | off, v :: vs => .write (Config.base + off) 4 v :: writeWords (off + 4) vs

/-- The host accesses of a line (R110, R111), and in a wait the completion (log 13).  R111 gives `lddbuf` no bound and
`ldrbuf` the bound of 16 bytes; here a longer string goes on with writes at the offsets that follow, mapped or not
(DESIGN CHOICE, assumption log 14, unsafe beyond 256 and 16 bytes). -/
def expand : ScriptLine → List Event
  | .wr r v => [wrEvent r v]
  | .rd r => [rdEvent r]
  | .cmd i => [wrEvent .cmd (encode i)]
  | .wait polls => waitEvents polls
  | .ldkey k => writeWords (offsetOf (.key 0)) (wordsOf k.toList) ++ [wrEvent .klen 16]
  | .lddbuf bs => writeWords Config.dbufBase (wordsOf bs) ++ [wrEvent .dlen (BitVec.ofNat 32 bs.length)]
  | .ldrbuf bs => writeWords Config.rbufBase (wordsOf bs) ++ [wrEvent .rlen (BitVec.ofNat 32 bs.length)]
  | .desc f d => [wrEvent (.descA f) (descAWord d), wrEvent (.descB f) (descBWord d)]
  | .fset f v polls =>
    (List.finRange 4).map (fun j => wrEvent (.fdata j) (valueWord v j)) ++
      [wrEvent .cmd (encode (.bfSet (fieldByte f)))] ++ waitEvents polls
  | .fget f polls =>
    [wrEvent .cmd (encode (.bfGet (fieldByte f)))] ++ waitEvents polls ++
      (List.finRange 4).map (fun j => rdEvent (.fdata j))
  | .clrerr => [wrEvent .status 0x4]
  | .jaenc => [wrEvent .cmd (encode .ecbDec)]
  | .jadec => [wrEvent .cmd (encode .ecbEnc)]

/-- A sequence of atomic steps, one after the other, stopping at the first fault or refusal. -/
def runEvents : List Event → State → Host.Outcome State Fault Refusal
  | [], s => .next s
  | e :: es, s =>
    match runEvent e s with
    | .next t => runEvents es t
    | .fault r => .fault r
    | .refused r => .refused r

end Sys2Proof.Machine
end

