-- ==== Sys2Proof/Safety.lean ====
section
/-! DEFINITION. What holds in every state of a run: the hardware invariants of spec/10_state.md R23, the rows of
table T242 (spec/60_exceptions.md R242), and the canonical form of the byte buffers. -/

namespace Sys2Proof.Safety

open Sys2Proof.Machine

/-- BUSY = 1 implies ERR = 0 and DONE = 0 (R23). -/
def busyExclusive (s : State) : Prop := s.busy = true → s.err = false ∧ s.done = false

/-- ERR = 0 implies ERRCODE = 0 and ERRINFO = 0 (R23). -/
def noErrorNoRecord (s : State) : Prop := s.err = false → s.errcode = 0 ∧ s.errinfo = 0

/-- The rows of table T242 whose FIELD is a field index f below 16: the error and its sub-cause. -/
def fieldRows : List (ErrCode × Nat) :=
  [(.format, 2), (.format, 3), (.range, 1), (.range, 2), (.range, 3), (.range, 4), (.invalidValue, 1),
   (.desc, 1), (.desc, 2), (.desc, 3), (.desc, 4), (.desc, 5), (.desc, 6)]

/-- The rows of table T242 whose FIELD is 0xFF. -/
def plainRows : List (ErrCode × Nat) :=
  [(.format, 1), (.key, 1), (.illcmd, 1), (.illcmd, 2), (.len, 1), (.len, 2), (.len, 3)]

/-- An error is a row of table T242; the row ILLCMD 3 has FIELD = F, 16 or more. -/
def inTable242 (e : CmdError) : Prop :=
  ((e.code, e.sub.toNat) ∈ fieldRows ∧ e.field.toNat < 16) ∨
  ((e.code, e.sub.toNat) ∈ plainRows ∧ e.field = 0xFF) ∨
  (e.code = .illcmd ∧ e.sub = 3 ∧ 16 ≤ e.field.toNat)

/-- ERR = 1 implies that ERRCODE and ERRINFO are those of a row of table T242 (R242). -/
def errorIsRecorded (s : State) : Prop :=
  s.err = true → ∃ e : CmdError, inTable242 e ∧ s.errcode = e.code.number ∧ s.errinfo = errinfoOf e

/-- The byte buffers are in canonical form. -/
def memCanonical (s : State) : Prop := Memory.wf s.mem = true

/-- No byte outside RBUF and DBUF is held (R20, T78). -/
def memInBuffers (s : State) : Prop := ∀ c ∈ s.mem, inBuffers c.1 = true

/-- The invariant of the block. -/
def Inv (s : State) : Prop :=
  busyExclusive s ∧ noErrorNoRecord s ∧ errorIsRecorded s ∧ memCanonical s ∧ memInBuffers s

/-! ## The terms the statements use, written from the spec's tables -/

/-- The state a failed command leaves: ERRCODE, ERRINFO = `(SUB << 8) | FIELD`, ERR = 1, BUSY = 0 (R245), with the
code numbers of table T241. -/
def failed (s : State) (code sub field : Nat) : State :=
  { s with errcode := BitVec.ofNat 4 code, errinfo := BitVec.ofNat 16 (256 * sub + field),
           err := true, busy := false }

/-- The end of a successful command: DONE = 1, BUSY = 0 (R105). -/
def succeeded (s : State) : State := { s with done := true, busy := false }

/-- A slot that holds a field: KIND is not NONE (R43). -/
abbrev inUse (d : Desc) : Prop := d.kind ≠ 0

/-- A field that carries a value: FLAG, NUMERIC, ENUM or OCTETS (R43). -/
abbrev carriesValue (d : Desc) : Prop := d.kind = 1 ∨ d.kind = 2 ∨ d.kind = 3 ∨ d.kind = 4

/-- `HI - LO + 1`. -/
abbrev fieldWidth (d : Desc) : Nat := d.hi.toNat + 1 - d.lo.toNat

/-- The scale factor, 0 acting as 1 (R40). -/
abbrev scaleFactor (d : Desc) : Nat := if d.scale.toNat = 0 then 1 else d.scale.toNat

/-- What items (1) to (5) of R131 ask of a descriptor. -/
abbrev descValid (d : Desc) : Prop :=
  d.kind = 0 ∨
    (d.kind.toNat ≤ 5 ∧ d.lo.toNat ≤ d.hi.toNat ∧ (d.kind = 4 → fieldWidth d % 8 = 0) ∧
      (d.kind = 3 → d.ebase.toNat + d.ecnt.toNat ≤ 64))

/-- Two fields in use whose inclusive ranges share a bit (R131). -/
abbrev shareBit (d e : Desc) : Prop :=
  inUse d ∧ inUse e ∧ e.lo.toNat ≤ d.hi.toNat ∧ d.lo.toNat ≤ e.hi.toNat

/-- A table that `check_table()` passes (R131). -/
abbrev tableValid (desc : Vector Desc 16) : Prop :=
  (∀ f : Fin 16, descValid desc[f]) ∧ ∀ f g : Fin 16, g < f → ¬shareBit desc[f] desc[g]

/-- `member(f, v)`: an entry of the field's slice of ETAB, zero-extended, is v (R41, R134). -/
abbrev memberOf (etab : Vector Word 64) (d : Desc) (v : Value) : Prop :=
  ∃ n : Fin 64, d.ebase.toNat ≤ n.val ∧ n.val < d.ebase.toNat + d.ecnt.toNat ∧ etab[n].setWidth 128 = v

/-- A value that BF_SET takes into a field that carries a value (R139). -/
abbrev settable (etab : Vector Word 64) (d : Desc) (v : Value) : Prop :=
  (d.kind = 1 → v.toNat ≤ 1) ∧ (d.kind = 2 → v.toNat * scaleFactor d < 2 ^ fieldWidth d) ∧
    (d.kind = 3 → memberOf etab d v ∧ v.toNat < 2 ^ fieldWidth d) ∧ (d.kind = 4 → v.toNat < 2 ^ fieldWidth d)

/-- Field bits that BF_DECODE takes: an exact multiple of the scale, a member under STRICT (R136). -/
abbrev decodable (s : State) (d : Desc) (x : Nat) : Prop :=
  (d.kind = 2 → x % scaleFactor d = 0) ∧
    (d.kind = 3 → s.strict = true → memberOf s.etab d (BitVec.ofNat 128 x))

/-- The byte of RBUF that holds bit b of a record of W bytes: W-1-(b div 8) when LE = 0, b div 8 when LE = 1
(R133). -/
abbrev byteOfBit (le : Bool) (w b : Nat) : Nat := if le then b / 8 else w - 1 - b / 8

/-- Bit b of the raw integer that RBUF holds for a record of W bytes (R133). -/
abbrev rbufBit (s : State) (w b : Nat) : Bool :=
  (readByte s.mem (0x080 + byteOfBit s.le w b)).getLsbD (b % 8)

/-- The bits x of a field in the raw integer that RBUF holds: `(raw >> LO) & mask(w)` (R134), bit by bit. -/
abbrev rbufField (s : State) (w : Nat) (d : Desc) (x : Nat) : Prop :=
  x < 2 ^ fieldWidth d ∧ ∀ b, b < fieldWidth d → x.testBit b = rbufBit s w (d.lo.toNat + b)

/-- Every byte outside `[a, a + n)` reads as before. -/
abbrev bytesKept (m m' : Memory) (a n : Nat) : Prop :=
  ∀ x, x < a ∨ a + n ≤ x → readByte m' x = readByte m x

end Sys2Proof.Safety
end

