-- ==== Sys2Proof/Certificates/Slice0/Obligations.lean ====
section
/-! DEFINITION. The statements for the provers. -/

open Sys2Proof Sys2Proof.Machine Sys2Proof.Safety

/-! ## Encoding and decoding -/

/-- A word decodes to a command exactly when the command is well formed and the word is its encoding (R100 to R102,
R108). -/
def Obligations.DecodeAgreesWithEncode : Prop :=
  ∀ (w : Word) (i : Instr), decode w = .ok i ↔ (i.wellFormed = true ∧ encode i = w)

/-- R108: a word w is the command when `w & mask = match`; for formats F1 and FK the F field must in addition be
below 16.  One line per row of table T108. -/
def Obligations.MaskAndMatchOfTheOpcodeMap : Prop :=
  ∀ w : Word,
    (decode w = .ok .nop ↔ w &&& 0xFFFFFFFF = 0x00000000) ∧
    (decode w = .ok .srst ↔ w &&& 0xFFFFFFFF = 0x00000001) ∧
    (decode w = .ok .ecbEnc ↔ w &&& 0xFFFFFFFF = 0x00000010) ∧
    (decode w = .ok .ecbDec ↔ w &&& 0xFFFFFFFF = 0x00000011) ∧
    (decode w = .ok .ksXor ↔ w &&& 0xFFFFFFFF = 0x00000012) ∧
    (decode w = .ok .cmac ↔ w &&& 0xFFFFFFFF = 0x00000013) ∧
    (decode w = .ok .micData ↔ w &&& 0xFFFFFFFF = 0x00000014) ∧
    (decode w = .ok .bfEncode ↔ w &&& 0xFFFFFFFF = 0x00000020) ∧
    (decode w = .ok .bfDecode ↔ w &&& 0xFFFFFFFF = 0x00000021) ∧
    (∀ f : Byte, decode w = .ok (.bfSet f) ↔
      (w &&& 0xFFFF00FF = 0x00000022 ∧ w.extractLsb' 8 8 = f ∧ f.toNat < 16)) ∧
    (∀ f : Byte, decode w = .ok (.bfGet f) ↔
      (w &&& 0xFFFF00FF = 0x00000023 ∧ w.extractLsb' 8 8 = f ∧ f.toNat < 16)) ∧
    (∀ f k : Byte, decode w = .ok (.bfTest f k) ↔
      (w &&& 0xFF0000FF = 0x00000024 ∧ w.extractLsb' 8 8 = f ∧ w.extractLsb' 16 8 = k ∧ f.toNat < 16)) ∧
    (∀ f : Byte, decode w = .ok (.bfEchk f) ↔
      (w &&& 0xFFFF00FF = 0x00000025 ∧ w.extractLsb' 8 8 = f ∧ f.toNat < 16)) ∧
    (decode w = .ok .bfClr ↔ w &&& 0xFFFFFFFF = 0x00000026)

/-- R109: the encoding examples, with the errors of the three words that are no command. -/
def Obligations.WordsOfTheEncodingExamples : Prop :=
  decode 0x00000322 = .ok (.bfSet 3) ∧ encode (.bfSet 3) = 0x00000322 ∧
  decode 0x00020024 = .ok (.bfTest 0 2) ∧ encode (.bfTest 0 2) = 0x00020024 ∧
  decode 0x00000012 = .ok .ksXor ∧ encode .ksXor = 0x00000012 ∧
  ∀ s : State,
    (s.cmdr = 0x00000112 → completionStep s = .next (failed s 5 2 0xFF)) ∧
    (s.cmdr = 0x00001022 → completionStep s = .next (failed s 5 3 16)) ∧
    (s.cmdr = 0x00000002 → completionStep s = .next (failed s 5 1 0xFF))

/-- R102: the three decode checks, in their order, on the fields of CMDR: OP in bits 7:0, F in 15:8, K in 23:16, Z in
31:24; Z0 are the opcodes without operand, F1 those with F alone, FK is 0x24. -/
def Obligations.IllegalWordsRaiseIllcmdInOrder : Prop :=
  ∀ (s : State) (op f k z : Nat),
    op = s.cmdr.toNat % 256 → f = s.cmdr.toNat / 256 % 256 → k = s.cmdr.toNat / 65536 % 256 →
    z = s.cmdr.toNat / 16777216 →
    let z0 := [0x00, 0x01, 0x10, 0x11, 0x12, 0x13, 0x14, 0x20, 0x21, 0x26]
    let f1 := [0x22, 0x23, 0x25]
    let opcodes := z0 ++ f1 ++ [0x24]
    let zeroFields := z = 0 ∧ (op ∈ z0 ++ f1 → k = 0) ∧ (op ∈ z0 → f = 0)
    (op ∉ opcodes → completionStep s = .next (failed s 5 1 0xFF)) ∧
    (op ∈ opcodes → ¬zeroFields → completionStep s = .next (failed s 5 2 0xFF)) ∧
    (op ∈ f1 ++ [0x24] → zeroFields → 16 ≤ f → completionStep s = .next (failed s 5 3 f)) ∧
    (op ∈ opcodes → zeroFields → (op ∈ f1 ++ [0x24] → f < 16) →
      ∃ i, decode s.cmdr = .ok i ∧ completionStep s = exec i s)

/-! ## The step -/

/-- When the engine may act next and a command is in progress, the step is the meaning of the decoded command on the
state with the pending steps that follow; a word that is no command fails its completion as R102 says; with BUSY = 0
the engine has no enabled step (R105).  A pending access of the host is one step too, the read or the write of R71 and
R72 on the state with the pending steps that follow (R82).  The pending steps, and that the engine acts when there is
none, are the model's choice (log entry 1). -/
def Obligations.StepRunsTheDecodedCommand : Prop :=
  (∀ (s : State) (i : Instr), s.busy = true → decode s.cmdr = .ok i → s.script = [] → step s = exec i s) ∧
  (∀ (s : State) (i : Instr) (es : List Event), s.busy = true → decode s.cmdr = .ok i →
    s.script = .engine :: es → step s = exec i { s with script := es }) ∧
  (∀ (s : State) (e : DecodeError), s.busy = true → decode s.cmdr = .error e → s.script = [] →
    step s = completionStep s) ∧
  (∀ (s : State) (e : DecodeError) (es : List Event), s.busy = true → decode s.cmdr = .error e →
    s.script = .engine :: es → step s = completionStep { s with script := es }) ∧
  (∀ (s : State) (es : List Event), s.busy = false → s.script = .engine :: es →
    step s = .next { s with script := es }) ∧
  (∀ s : State, s.busy = false → s.script = [] → step s = .next s) ∧
  (∀ (s : State) (addr n : Nat) (es : List Event), s.script = .read addr n :: es →
    step s = .next (memRead addr n { s with script := es })) ∧
  (∀ (s : State) (addr n : Nat) (v : Word) (es : List Event), s.script = .write addr n v :: es →
    step s = .next (memWrite addr n v { s with script := es }))

/-- Placing a command word makes the very next step run that command on the state at its acceptance (the model's choice,
log entry 5). -/
def Obligations.PlacedWordRunsNext : Prop :=
  ∀ (s : State) (w : Word) (i : Instr), decode w = .ok i →
    step (s.withFetchWord 32 w.toNat) = exec i { s with cmdr := w, busy := true, done := false }

/-- No step of the machine and no command stops: each answers a next state (R240, R281). -/
def Obligations.EveryStepAnswersNext : Prop :=
  (∀ s : State, ∃ t, step s = .next t) ∧ ∀ (i : Instr) (s : State), ∃ t, exec i s = .next t

/-- R281 (a): a busy block always completes.  Whatever steps of the environment are pending, within one step for each
and one more the machine reaches a state with BUSY = 0.  The pending steps, and that the engine acts when there is none,
are the model's choice (log entries 1 and 2). -/
def Obligations.BusyBlockAlwaysCompletes : Prop :=
  ∀ s : State, s.busy = true →
    ∃ (n : Nat) (t : State), n ≤ s.script.length + 1 ∧ Host.Core.run core n s = .next t ∧ t.busy = false

/-- The invariant of the block is kept by every step, from every state that has it. -/
def Obligations.InvariantKeptByEveryStep : Prop :=
  ∀ s t : State, Inv s → step s = .next t → Inv t

/-- The invariant holds in the reset state. -/
def Obligations.InvariantHoldsAtReset : Prop := Inv State.reset

/-- R245: errors are precise.  After a completion step that fails, the state is the state before it with ERRCODE,
ERRINFO, ERR and BUSY changed and nothing else, and the error is a row of table T242 (R242). -/
def Obligations.ErrorsArePrecise : Prop :=
  ∀ s t : State, s.busy = true → s.err = false → engineStep s = .next t → t.err = true →
    ∃ e : CmdError, inTable242 e ∧ t = failed s e.code.number.toNat e.sub.toNat e.field.toNat

/-- A completion step clears BUSY and sets exactly one of DONE and ERR, except SRST, which sets neither (R105,
R231). -/
def Obligations.CompletionSetsOneOfDoneAndErr : Prop :=
  ∀ s t : State, s.busy = true → s.err = false → s.done = false → engineStep s = .next t →
    t.busy = false ∧
    (s.cmdr = 0x00000001 → t.done = false ∧ t.err = false) ∧
    (s.cmdr ≠ 0x00000001 → t.done = !t.err)

/-- While BUSY = 1 a host access changes nothing a command reads: only DONE, WERR, the three interrupt enables and the
port's answer (R77, R79).  The access may be an instruction fetch (log entry 9) or lie outside the window (log entry 8). -/
def Obligations.BusyIntervalFreezesTheState : Prop :=
  ∀ (s : State) (e : Event) (es : List Event),
    s.busy = true → s.err = false → s.errcode = 0 → s.errinfo = 0 → s.script = e :: es →
    e ≠ .engine → e ≠ .reset →
    ∃ (d w a b c : Bool) (ans : Answer),
      step s = .next { s with done := d, werr := w, doneIE := a, errIE := b, werrIE := c, portAnswer := ans,
                              script := es }

/-- What a command other than SRST does depends on neither WERR nor the interrupt enables (R45, R107). -/
def Obligations.CommandsIgnoreWerrAndEnables : Prop :=
  ∀ (i : Instr) (s t : State) (w a b c : Bool), i ≠ .srst → exec i s = .next t →
    exec i { s with werr := w, doneIE := a, errIE := b, werrIE := c } =
      .next { t with werr := w, doneIE := a, errIE := b, werrIE := c }

/-! ## The host port -/

/-- R104: acceptance of a command word, and the two states in which the write is dropped. -/
def Obligations.AcceptanceOfACommand : Prop :=
  ∀ (s : State) (w : Word),
    (s.busy = false → s.err = false →
      memWrite (Config.base + 0x004) 4 w s =
        { s with cmdr := w, busy := true, done := false, portAnswer := .written }) ∧
    (s.busy = true ∨ s.err = true →
      memWrite (Config.base + 0x004) 4 w s = { s with werr := true, portAnswer := .written })

/-- R77: a write to a mapped register is dropped in exactly two cases, and then sets WERR and changes nothing else
of the block; in every other case it has the register's own effect. -/
def Obligations.DroppedWritesOnlySetWerr : Prop :=
  ∀ (s : State) (r : Reg) (v : Word),
    let caseA := s.busy = true ∧ r ≠ .status ∧ r ≠ .ien
    let caseB := r = .cmd ∧ s.busy = false ∧ s.err = true
    (caseA ∨ caseB → memWrite (Config.base + offsetOf r) 4 v s = { s with werr := true, portAnswer := .written }) ∧
    (¬(caseA ∨ caseB) →
      memWrite (Config.base + offsetOf r) 4 v s = { writeReg r v s with portAnswer := .written })

/-- R75: the unmapped offsets of the window; an access there is a bus error and changes no state.  Every other multiple
of 4 below 0x1000 is mapped, and each register stands at the offset that table T78 gives it: a read there answers that
register's value. -/
def Obligations.UnmappedOffsetsAnswerBusError : Prop :=
  ∀ s : State,
    let reaches (off : Nat) (r : Reg) : Prop :=
      offsetOf r = off ∧ memRead (Config.base + off) 4 s = { s with portAnswer := .data (readReg s r) };
    (∀ (off : Nat) (v : Word), off < 4096 → off % 4 = 0 →
      let unmapped :=
        (0x018 ≤ off ∧ off ≤ 0x01C) ∨ off = 0x03C ∨ (0x070 ≤ off ∧ off ≤ 0x07C) ∨
          (0x090 ≤ off ∧ off ≤ 0x0FC) ∨ (0x180 ≤ off ∧ off ≤ 0x1FC) ∨ (0x300 ≤ off ∧ off ≤ 0x3FC) ∨
          (0x500 ≤ off ∧ off ≤ 0xFFC);
      (unmapped →
        memRead (Config.base + off) 4 s = { s with portAnswer := .busError } ∧
        memWrite (Config.base + off) 4 v s = { s with portAnswer := .busError }) ∧
      (¬unmapped → ∃ r, reaches off r)) ∧
    reaches 0x000 .id ∧ reaches 0x004 .cmd ∧ reaches 0x008 .status ∧ reaches 0x00C .ien ∧
    reaches 0x010 .errcode ∧ reaches 0x014 .errinfo ∧ reaches 0x020 .klen ∧ reaches 0x024 .dir ∧
    reaches 0x028 .devaddr ∧ reaches 0x02C .fcnt ∧ reaches 0x030 .dlen ∧ reaches 0x034 .rlen ∧
    reaches 0x038 .bfctrl ∧
    (∀ j : Fin 4,
      reaches (0x040 + 4 * j.val) (.key j) ∧ reaches (0x050 + 4 * j.val) (.tag j) ∧
      reaches (0x060 + 4 * j.val) (.fdata j) ∧ reaches (0x080 + 4 * j.val) (.rbuf j)) ∧
    (∀ f : Fin 16, reaches (0x100 + 8 * f.val) (.descA f) ∧ reaches (0x104 + 8 * f.val) (.descB f)) ∧
    (∀ n : Fin 64, reaches (0x200 + 4 * n.val) (.etab n)) ∧
    (∀ j : Fin 64, reaches (0x400 + 4 * j.val) (.dbuf j))

/-- An access of another width or alignment or at an address outside the window, and an instruction fetch, is a bus error
with no effect on the block (R71, R72, R73).  R73 speaks of the window; that an address outside it is answered the same
way is log entry 8, and that the fetch is an event of any address and width is log entry 9 (both DEDUCED). -/
def Obligations.OtherWidthsAndAlignmentsAnswerBusError : Prop :=
  ∀ (s : State) (addr n : Nat) (v : Word) (es : List Event),
    (n ≠ 4 ∨ addr % 4 ≠ 0 ∨ addr < Config.base ∨ Config.base + 4096 ≤ addr →
      memRead addr n s = { s with portAnswer := .busError } ∧
      memWrite addr n v s = { s with portAnswer := .busError }) ∧
    (s.script = .fetch addr n :: es → step s = .next { s with portAnswer := .busError, script := es })

/-- A read of a mapped register answers its value and changes no state of the block; STATUS and IEN bit by bit, and
the bits above a narrow register's own read as zero; the words of DESC, FDATA and ETAB with every field at its place (R21
to R41, R71). -/
def Obligations.ReadsReturnTheRegisterAndChangeNothing : Prop :=
  ∀ (s : State),
    (∀ r : Reg, memRead (Config.base + offsetOf r) 4 s = { s with portAnswer := .data (readReg s r) }) ∧
    (∀ i, i < 32 → (readReg s .status).getLsbD i = [s.busy, s.done, s.err, s.werr, s.t].getD i false) ∧
    (∀ i, i < 32 → (readReg s .ien).getLsbD i = [false, s.doneIE, s.errIE, s.werrIE].getD i false) ∧
    (∀ i, i < 32 → (readReg s .bfctrl).getLsbD i = [s.le, s.strict].getD i false) ∧
    readReg s .id = 0x44475301 ∧ readReg s .cmd = s.cmdr ∧ readReg s .devaddr = s.devaddr ∧
    (readReg s .errcode).toNat = s.errcode.toNat ∧ (readReg s .errinfo).toNat = s.errinfo.toNat ∧
    (readReg s .klen).toNat = s.klen.toNat ∧ (readReg s .dir).toNat = s.dir.toNat ∧
    (readReg s .fcnt).toNat = s.fcnt.toNat ∧ (readReg s .dlen).toNat = s.dlen.toNat ∧
    (readReg s .rlen).toNat = s.rlen.toNat ∧
    (∀ f : Fin 16, (readReg s (.descA f)).toNat =
      s.desc[f].lo.toNat + 2 ^ 8 * s.desc[f].hi.toNat + 2 ^ 16 * s.desc[f].kind.toNat) ∧
    (∀ f : Fin 16, (readReg s (.descB f)).toNat =
      s.desc[f].scale.toNat + 2 ^ 16 * s.desc[f].ebase.toNat + 2 ^ 22 * s.desc[f].ecnt.toNat) ∧
    (∀ j : Fin 4, (readReg s (.fdata j)).toNat = s.fdata.toNat / 2 ^ (32 * j.val) % 2 ^ 32) ∧
    (∀ n : Fin 64, readReg s (.etab n) = s.etab[n])

/-- R74: lane i of word j of KEY, TAG, RBUF and DBUF is byte 4j+i, on reads and on accepted writes, and an accepted
write changes no other byte. -/
def Obligations.ByteLanesOfTheBuffers : Prop :=
  ∀ (s : State) (v : Word), s.busy = false → Memory.wf s.mem = true →
    (∀ (j : Fin 64) (i : Fin 4),
      (readReg s (.dbuf j)).extractLsb' (8 * i.val) 8 = readByte s.mem (0x400 + 4 * j.val + i.val) ∧
      readByte (memWrite (Config.base + (0x400 + 4 * j.val)) 4 v s).mem (0x400 + 4 * j.val + i.val) =
        v.extractLsb' (8 * i.val) 8) ∧
    (∀ j : Fin 64,
      bytesKept s.mem (memWrite (Config.base + (0x400 + 4 * j.val)) 4 v s).mem (0x400 + 4 * j.val) 4) ∧
    (∀ (j i : Fin 4),
      (readReg s (.rbuf j)).extractLsb' (8 * i.val) 8 = readByte s.mem (0x080 + 4 * j.val + i.val) ∧
      readByte (memWrite (Config.base + (0x080 + 4 * j.val)) 4 v s).mem (0x080 + 4 * j.val + i.val) =
        v.extractLsb' (8 * i.val) 8) ∧
    (∀ j : Fin 4,
      bytesKept s.mem (memWrite (Config.base + (0x080 + 4 * j.val)) 4 v s).mem (0x080 + 4 * j.val) 4) ∧
    (∀ (j : Fin 4) (n : Fin 16),
      (n.val / 4 = j.val → (readReg s (.tag j)).extractLsb' (8 * (n.val % 4)) 8 = s.tag[n]) ∧
      (memWrite (Config.base + (0x040 + 4 * j.val)) 4 v s).key[n] =
        if n.val / 4 = j.val then v.extractLsb' (8 * (n.val % 4)) 8 else s.key[n])

/-- What each register reads after a write on a block that is not busy: the written word with the bits that read as zero
cleared; a read-only register what it read before; KEY zero; STATUS with the cleared bits; CMD the written word, or
CMDR as it was when ERR = 1 drops the write (R21 to R41, R76, R104). -/
def Obligations.WrittenRegistersReadBackMasked : Prop :=
  ∀ (s : State) (v : Word), s.busy = false → Memory.wf s.mem = true →
    let after (r : Reg) : Answer :=
      (memRead (Config.base + offsetOf r) 4 (memWrite (Config.base + offsetOf r) 4 v s)).portAnswer
    after .ien = .data (v &&& 0x0000000E) ∧ after .klen = .data (v &&& 0x000000FF) ∧
    after .dir = .data (v &&& 0x00000001) ∧ after .devaddr = .data v ∧
    after .fcnt = .data (v &&& 0x0000FFFF) ∧ after .dlen = .data (v &&& 0x0000FFFF) ∧
    after .rlen = .data (v &&& 0x000000FF) ∧ after .bfctrl = .data (v &&& 0x00000003) ∧
    (∀ j, after (.key j) = .data 0) ∧ (∀ j, after (.tag j) = .data (readReg s (.tag j))) ∧
    (∀ j, after (.fdata j) = .data v) ∧ (∀ j, after (.rbuf j) = .data v) ∧
    after .id = .data (readReg s .id) ∧ after .errcode = .data (readReg s .errcode) ∧
    after .errinfo = .data (readReg s .errinfo) ∧
    after .status = .data (readReg s .status &&& ~~~(v &&& 0x0000000E)) ∧
    (s.err = false → after .cmd = .data v) ∧ (s.err = true → after .cmd = .data s.cmdr) ∧
    (∀ f, after (.descA f) = .data (v &&& 0x00077F7F)) ∧ (∀ f, after (.descB f) = .data (v &&& 0x1FFFFFFF)) ∧
    (∀ n, after (.etab n) = .data v) ∧ (∀ j, after (.dbuf j) = .data v)

/-- No two registers alias: a write to a register other than CMD and STATUS on a block that is not busy changes what no
other register reads (R44).  The state that no register reads: no host write at all changes a field value, which has no
address (R42), and only a write to a KEY word changes the key (R28, R29). -/
def Obligations.NoTwoRegistersAlias : Prop :=
  ∀ (s : State) (r : Reg) (v : Word),
    (∀ q : Reg, s.busy = false → r ≠ .cmd → r ≠ .status → q ≠ r →
      readReg (memWrite (Config.base + offsetOf r) 4 v s) q = readReg s q) ∧
    (memWrite (Config.base + offsetOf r) 4 v s).fv = s.fv ∧
    ((∀ j, r ≠ .key j) → (memWrite (Config.base + offsetOf r) 4 v s).key = s.key)

/-- KEY is never readable: its words read as 0, and no read of any address answers differently for another key (R29,
R76). -/
def Obligations.KeyIsNeverReadable : Prop :=
  (∀ (s : State) (j : Fin 4),
    memRead (Config.base + (0x040 + 4 * j.val)) 4 s = { s with portAnswer := .data 0 }) ∧
  ∀ (s : State) (k : Block) (addr n : Nat),
    (memRead addr n { s with key := k }).portAnswer = (memRead addr n s).portAnswer

/-- A write of STATUS is accepted in every state and does the three clears and nothing else (R23). -/
def Obligations.StatusWriteOneToClear : Prop :=
  ∀ (s : State) (v : Word),
    memWrite (Config.base + 0x008) 4 v s =
      { s with done := s.done && !v.getLsbD 1
               err := s.err && !v.getLsbD 2
               errcode := if v.getLsbD 2 then 0 else s.errcode
               errinfo := if v.getLsbD 2 then 0 else s.errinfo
               werr := s.werr && !v.getLsbD 3
               portAnswer := .written }

/-- Error return: the write of STATUS bit 2 clears ERR, ERRCODE and ERRINFO in one step, and the next write to CMD is
accepted; SRST written before it is dropped (R246, R247). -/
def Obligations.ErrorReturnByTheHost : Prop :=
  ∀ (s : State) (w : Word), s.busy = false → s.err = true →
    memWrite (Config.base + 0x008) 4 0x00000004 s =
      { s with err := false, errcode := 0, errinfo := 0, portAnswer := .written } ∧
    memWrite (Config.base + 0x004) 4 w (memWrite (Config.base + 0x008) 4 0x00000004 s) =
      { s with err := false, errcode := 0, errinfo := 0, cmdr := w, busy := true, done := false,
               portAnswer := .written } ∧
    memWrite (Config.base + 0x004) 4 0x00000001 s = { s with werr := true, portAnswer := .written }

/-- R250: the interrupt output. -/
def Obligations.IrqIsAFunctionOfStatusAndIen : Prop :=
  ∀ s : State,
    (irq s = true ↔ (s.done = true ∧ s.doneIE = true) ∨ (s.err = true ∧ s.errIE = true) ∨
      (s.werr = true ∧ s.werrIE = true)) ∧
    (irq s = true ↔ readReg s .status &&& readReg s .ien &&& 0x0000000E ≠ 0)

/-- Loading a key by the script line `ldkey`, a descriptor by `desc` and a field value by the four writes of `fset`, on a
block that is not busy: the registers hold what the line gives, and nothing else of the block changes (R110, R111). -/
def Obligations.ScriptLinesLoadWhatTheyGive : Prop :=
  ∀ (s : State), s.busy = false →
    (∀ k : Block, runEvents (expand (.ldkey k)) s = .next { s with key := k, klen := 16, portAnswer := .written }) ∧
    (∀ (f : Fin 16) (d : Desc),
      runEvents (expand (.desc f d)) s =
        .next { s with desc := s.desc.set f.val d f.isLt, portAnswer := .written }) ∧
    (∀ v : Value,
      runEvents ((List.finRange 4).map fun j => wrEvent (.fdata j) (valueWord v j)) s =
        .next { s with fdata := v, portAnswer := .written })

/-! ## Reset -/

/-- R48, R270: every piece of state is 0 at reset, ID is its constant, and irq is 0. -/
def Obligations.ResetValues : Prop :=
  let z := State.reset
  z.cmdr = 0 ∧ z.busy = false ∧ z.done = false ∧ z.err = false ∧ z.werr = false ∧ z.t = false ∧
  z.doneIE = false ∧ z.errIE = false ∧ z.werrIE = false ∧ z.errcode = 0 ∧ z.errinfo = 0 ∧ z.klen = 0 ∧
  (∀ n : Fin 16, z.key[n] = 0) ∧ z.dir = 0 ∧ z.devaddr = 0 ∧ z.fcnt = 0 ∧ z.dlen = 0 ∧
  (∀ n : Fin 16, z.tag[n] = 0) ∧ z.rlen = 0 ∧ z.le = false ∧ z.strict = false ∧ z.fdata = 0 ∧
  (∀ f : Fin 16, z.desc[f] = { lo := 0, hi := 0, kind := 0, scale := 0, ebase := 0, ecnt := 0 }) ∧
  (∀ n : Fin 64, z.etab[n] = 0) ∧ (∀ f : Fin 16, z.fv[f] = 0) ∧ (∀ a, readByte z.mem a = 0) ∧
  readReg z .id = 0x44475301 ∧ irq z = false

/-- R272: the reset event discards a command in progress, and the state is the reset state.  That the model's own two
fields stay is its choice (log entry 7). -/
def Obligations.ResetEventGivesTheResetState : Prop :=
  ∀ (s : State) (es : List Event), s.script = .reset :: es →
    step s = .next { State.reset with script := es, portAnswer := s.portAnswer }

/-! ## System commands -/

/-- R230: NOP changes nothing but DONE and BUSY. -/
def Obligations.NopOnlyCompletes : Prop :=
  ∀ s : State, exec .nop s = .next { s with done := true, busy := false }

/-- R231: SRST leaves every piece of state at its reset value, DONE included.  That the model's own two fields stay is
its choice (log entry 7). -/
def Obligations.SrstGivesTheResetState : Prop :=
  ∀ s : State, exec .srst s = .next { State.reset with script := s.script, portAnswer := s.portAnswer }

/-! ## AES-128 -/

/-- R171: SBOX is the affine map of the inverse in GF(2^8), a permutation with no fixed point; R172: INV_SBOX is its
inverse. -/
def Obligations.SboxIsTheAffineMapOfTheInverse : Prop :=
  let affine (b : Byte) : Byte :=
    b ^^^ b.rotateLeft 1 ^^^ b.rotateLeft 2 ^^^ b.rotateLeft 3 ^^^ b.rotateLeft 4 ^^^ 0x63
  sbox 0 = affine 0 ∧
  (∀ x : Byte, x ≠ 0 → ∃ b : Byte, gmul x b = 1 ∧ sbox x = affine b) ∧
  (∀ x : Byte, sbox x ≠ x) ∧ (∀ x : Byte, invSbox (sbox x) = x) ∧ (∀ x : Byte, sbox (invSbox x) = x)

/-- Each Inv transformation is the inverse of its partner, on both sides, and AddRoundKey is its own inverse (R175). -/
def Obligations.RoundTransformationsInvert : Prop :=
  ∀ s k : Block,
    invSubBytes (subBytes s) = s ∧ subBytes (invSubBytes s) = s ∧
    invShiftRows (shiftRows s) = s ∧ shiftRows (invShiftRows s) = s ∧
    invMixColumns (mixColumns s) = s ∧ mixColumns (invMixColumns s) = s ∧
    xorBlock (xorBlock s k) k = s

/-- R170: AES_DEC under a key inverts AES_ENC under it, and the other way round. -/
def Obligations.AesDecryptInvertsEncrypt : Prop :=
  ∀ k b : Block, aesDec k (aesEnc k b) = b ∧ aesEnc k (aesDec k b) = b

/-- The check values of R177, R178 and R179. -/
def Obligations.AesCheckValues : Prop :=
  let k := blockOf (bytesBe 0x000102030405060708090a0b0c0d0e0f 16)
  let b := blockOf (bytesBe 0x00112233445566778899aabbccddeeff 16)
  let c := blockOf (bytesBe 0x69c4e0d86a7b0430d8cdb78070b4c55a 16)
  let ws := keyWords (blockOf (bytesBe 0x2b7e151628aed2a6abf7158809cf4f3c 16))
  intBe (roundKey ws 1).toList = 0xa0fafe1788542cb123a339392a6c7605 ∧
  intBe (roundKey ws 10).toList = 0xd014f9a8c9ee2589e13f0cc8b6630ca6 ∧
  intBe (aesEnc k b).toList = 0x69c4e0d86a7b0430d8cdb78070b4c55a ∧
  intBe (aesEnc zeroBlock zeroBlock).toList = 0x66e94bd4ef8a2c3b884cfa59ca342b2e ∧
  intBe (aesDec k c).toList = 0x00112233445566778899aabbccddeeff

/-- R211, R212: the doubling and the subkeys; the tag of a message of every length, byte by byte: n blocks, at least one,
a chain X over all but the last, the last block xor K1 when complete, else padded with 0x80 and zeros and xor K2; and the
check values of both rules. -/
def Obligations.CmacFollowsItsRules : Prop :=
  (∀ x : Block, intBe (dbl x).toList =
    (2 * intBe x.toList % 2 ^ 128) ^^^ (if (intBe x.toList).testBit 127 then 0x87 else 0)) ∧
  (∀ k : Block, cmacL k = aesEnc k (Vector.ofFn fun _ => 0) ∧ cmacK1 k = dbl (cmacL k) ∧
    cmacK2 k = dbl (cmacK1 k)) ∧
  (∀ (k : Block) (m : List Byte),
    let n := if m.length = 0 then 1 else (m.length + 15) / 16
    let last : Block := Vector.ofFn fun j : Fin 16 =>
      let p := 16 * (n - 1) + j.val
      if m.length ≠ 0 ∧ m.length % 16 = 0 then m.getD p 0 ^^^ (cmacK1 k)[j]
      else (if p < m.length then m.getD p 0 else if p = m.length then 0x80 else 0) ^^^ (cmacK2 k)[j]
    ∃ X : Nat → Block,
      (∀ j : Fin 16, (X 0)[j] = 0) ∧
      (∀ i, i + 1 < n →
        X (i + 1) = aesEnc k (Vector.ofFn fun j : Fin 16 => (X i)[j] ^^^ m.getD (16 * i + j.val) 0)) ∧
      cmac k m = aesEnc k (Vector.ofFn fun j : Fin 16 => (X (n - 1))[j] ^^^ last[j])) ∧
  (let k := blockOf (bytesBe 0x2b7e151628aed2a6abf7158809cf4f3c 16);
    intBe (cmacL k).toList = 0x7df76b0c1ab899b33e42f047b91b546f ∧
    intBe (cmacK1 k).toList = 0xfbeed618357133667c85e08f7236a8de ∧
    intBe (cmacK2 k).toList = 0xf7ddac306ae266ccf90bc11ee46d513b ∧
    intBe (cmac k []).toList = 0xbb1d6929e95937287fa37d129b756746 ∧
    intBe (cmac k (bytesBe 0x6bc1bee22e409f96e93d7e117393172a 16)).toList = 0x070a16b46b4d4144f79bdd9dd04a287c)

/-! ## The data commands -/

/-- The checks of the keyed commands in their order: KEY sub 1, LEN sub 1, then LEN sub 2 for the ECB commands and LEN
sub 3 for MIC_DATA (R180, R181, R244). -/
def Obligations.KeyedCommandsCheckKeyThenLength : Prop :=
  ∀ (i : Instr) (s : State), i ∈ [Instr.ecbEnc, .ecbDec, .ksXor, .cmac, .micData] →
    (s.klen.toNat ≠ 16 → exec i s = .next (failed s 4 1 0xFF)) ∧
    (s.klen.toNat = 16 → 256 < s.dlen.toNat → exec i s = .next (failed s 7 1 0xFF)) ∧
    (s.klen.toNat = 16 → s.dlen.toNat ≤ 256 → s.dlen.toNat % 16 ≠ 0 → i = .ecbEnc ∨ i = .ecbDec →
      exec i s = .next (failed s 7 2 0xFF)) ∧
    (s.klen.toNat = 16 → s.dlen.toNat = 256 → i = .micData → exec i s = .next (failed s 7 3 0xFF))

/-- R182: ECB_ENC encrypts DBUF[0..DLEN] block by block and changes nothing else. -/
def Obligations.EcbEncEncryptsEachBlock : Prop :=
  ∀ s : State, Memory.wf s.mem = true → s.klen.toNat = 16 → s.dlen.toNat ≤ 256 → s.dlen.toNat % 16 = 0 →
    ∃ m, exec .ecbEnc s = .next { s with mem := m, done := true, busy := false } ∧
      (∀ (j : Nat) (n : Fin 16), j < s.dlen.toNat / 16 →
        readByte m (0x400 + 16 * j + n.val) =
          (aesEnc s.key (Vector.ofFn fun i => readByte s.mem (0x400 + 16 * j + i.val)))[n]) ∧
      bytesKept s.mem m 0x400 s.dlen.toNat

/-- R183: ECB_DEC decrypts DBUF[0..DLEN] block by block and changes nothing else. -/
def Obligations.EcbDecDecryptsEachBlock : Prop :=
  ∀ s : State, Memory.wf s.mem = true → s.klen.toNat = 16 → s.dlen.toNat ≤ 256 → s.dlen.toNat % 16 = 0 →
    ∃ m, exec .ecbDec s = .next { s with mem := m, done := true, busy := false } ∧
      (∀ (j : Nat) (n : Fin 16), j < s.dlen.toNat / 16 →
        readByte m (0x400 + 16 * j + n.val) =
          (aesDec s.key (Vector.ofFn fun i => readByte s.mem (0x400 + 16 * j + i.val)))[n]) ∧
      bytesKept s.mem m 0x400 s.dlen.toNat

/-- The two ECB commands are mutually inverse: each after the other, with the same KEY and DLEN, restores the whole
state but for DONE and BUSY (R184). -/
def Obligations.EcbCommandsAreMutuallyInverse : Prop :=
  ∀ s : State, Memory.wf s.mem = true → s.klen.toNat = 16 → s.dlen.toNat ≤ 256 → s.dlen.toNat % 16 = 0 →
    (∃ t, exec .ecbEnc s = .next t ∧ exec .ecbDec t = .next { s with done := true, busy := false }) ∧
    (∃ t, exec .ecbDec s = .next t ∧ exec .ecbEnc t = .next { s with done := true, busy := false })

/-- R200, R215: the counter blocks byte by byte. -/
def Obligations.CounterBlocksByteByByte : Prop :=
  ∀ (s : State) (i : Nat),
    let middle : List Byte :=
      [0x00, 0x00, 0x00, 0x00, BitVec.ofNat 8 s.dir.toNat, s.devaddr.extractLsb' 0 8, s.devaddr.extractLsb' 8 8,
       s.devaddr.extractLsb' 16 8, s.devaddr.extractLsb' 24 8, s.fcnt.extractLsb' 0 8, s.fcnt.extractLsb' 8 8,
       0x00, 0x00, 0x00, BitVec.ofNat 8 i]
    (blockA s i).toList = 0x01 :: middle ∧ (blockB0 s i).toList = 0x49 :: middle

/-- R201: KS_XOR xors byte k of DBUF[0..DLEN] with byte k mod 16 of `AES_ENC(K, A_i)`, i = k div 16 + 1, and changes
nothing else. -/
def Obligations.KsXorAppliesTheKeystream : Prop :=
  ∀ s : State, Memory.wf s.mem = true → s.klen.toNat = 16 → s.dlen.toNat ≤ 256 →
    ∃ m, exec .ksXor s = .next { s with mem := m, done := true, busy := false } ∧
      (∀ (j : Nat) (n : Fin 16), 16 * j + n.val < s.dlen.toNat →
        readByte m (0x400 + (16 * j + n.val)) =
          readByte s.mem (0x400 + (16 * j + n.val)) ^^^ (aesEnc s.key (blockA s (j + 1)))[n]) ∧
      bytesKept s.mem m 0x400 s.dlen.toNat

/-- KS_XOR is its own inverse: run twice it restores the whole state but for DONE and BUSY (R202). -/
def Obligations.KsXorIsItsOwnInverse : Prop :=
  ∀ s : State, Memory.wf s.mem = true → s.klen.toNat = 16 → s.dlen.toNat ≤ 256 →
    ∃ t, exec .ksXor s = .next t ∧ exec .ksXor t = .next { s with done := true, busy := false }

/-- R214: CMAC leaves the tag of DBUF[0..DLEN] in TAG and changes nothing else. -/
def Obligations.CmacLeavesTheTagOfTheData : Prop :=
  ∀ s : State, s.klen.toNat = 16 → s.dlen.toNat ≤ 256 →
    exec .cmac s =
      .next { s with tag := cmac s.key ((List.range s.dlen.toNat).map fun k => readByte s.mem (0x400 + k))
                     done := true
                     busy := false }

/-- R216: MIC_DATA leaves the tag of B0 followed by DBUF[0..DLEN] in TAG and changes nothing else. -/
def Obligations.MicDataLeavesTheTagOfB0AndTheData : Prop :=
  ∀ s : State, s.klen.toNat = 16 → s.dlen.toNat ≤ 255 →
    exec .micData s =
      .next { s with
        tag := cmac s.key ((blockB0 s s.dlen.toNat).toList ++
          (List.range s.dlen.toNat).map fun k => readByte s.mem (0x400 + k))
        done := true
        busy := false }

/-! ## The bit-field unit -/

/-- R132: the width of the record the table declares. -/
def Obligations.RecordWidthOfTheTable : Prop :=
  ∀ desc : Vector Desc 16,
    ((∀ f : Fin 16, ¬inUse desc[f]) → recordWidth desc = 0) ∧
    (∀ f : Fin 16, inUse desc[f] → (∀ g : Fin 16, inUse desc[g] → desc[g].hi.toNat ≤ desc[f].hi.toNat) →
      recordWidth desc = (desc[f].hi.toNat + 1 + 7) / 8) ∧
    recordWidth desc ≤ 16

/-- BF_ENCODE fails exactly on a table that is not valid; BF_DECODE fails on every such table, with the same error
record (R131, R135, R136). -/
def Obligations.InvalidTablesAreRefused : Prop :=
  ∀ s t : State, s.err = false → exec .bfEncode s = .next t →
    (t.err = true ↔ ¬tableValid s.desc) ∧
    (¬tableValid s.desc → t.errcode = 6 ∧ exec .bfDecode s = .next t)

/-- R131: the first failing slot of the scan is reported: all lower slots pass, and slot f either is invalid by itself
(subs 1 to 4, by the first failing item) or overlaps a lower one (sub 5). -/
def Obligations.TableScanReportsTheFirstFailure : Prop :=
  ∀ (s : State) (f : Fin 16) (i : Instr), i = .bfEncode ∨ i = .bfDecode →
    (∀ g : Fin 16, g < f → descValid s.desc[g]) →
    (∀ g h : Fin 16, g < f → h < g → ¬shareBit s.desc[g] s.desc[h]) →
    let d := s.desc[f]
    (6 ≤ d.kind.toNat → exec i s = .next (failed s 6 1 f.val)) ∧
    (1 ≤ d.kind.toNat → d.kind.toNat ≤ 5 → d.hi.toNat < d.lo.toNat → exec i s = .next (failed s 6 2 f.val)) ∧
    (d.kind = 4 → d.lo.toNat ≤ d.hi.toNat → fieldWidth d % 8 ≠ 0 → exec i s = .next (failed s 6 3 f.val)) ∧
    (d.kind = 3 → d.lo.toNat ≤ d.hi.toNat → 64 < d.ebase.toNat + d.ecnt.toNat →
      exec i s = .next (failed s 6 4 f.val)) ∧
    (descValid d → (∃ g : Fin 16, g < f ∧ shareBit d s.desc[g]) → exec i s = .next (failed s 6 5 f.val))

/-- The four commands that name a field: the named descriptor's first failing item raises DESC subs 1 to 4 (R131, R244).
The first clause, exec on F of 16 or more raising ILLCMD sub 3, is the model's choice for an operand that decode never
gives (DEDUCED, log entry 10); the spec's own check of F is the decode check of R102, stated by
IllegalWordsRaiseIllcmdInOrder. -/
def Obligations.FieldCommandsCheckTheirDescriptor : Prop :=
  ∀ (s : State) (b k : Byte) (i : Instr), i ∈ [Instr.bfSet b, .bfGet b, .bfTest b k, .bfEchk b] →
    (16 ≤ b.toNat → exec i s = .next (failed s 5 3 b.toNat)) ∧
    ∀ f : Fin 16, f.val = b.toNat →
      let d := s.desc[f]
      (6 ≤ d.kind.toNat → exec i s = .next (failed s 6 1 f.val)) ∧
      (1 ≤ d.kind.toNat → d.kind.toNat ≤ 5 → d.hi.toNat < d.lo.toNat → exec i s = .next (failed s 6 2 f.val)) ∧
      (d.kind = 4 → d.lo.toNat ≤ d.hi.toNat → fieldWidth d % 8 ≠ 0 → exec i s = .next (failed s 6 3 f.val)) ∧
      (d.kind = 3 → d.lo.toNat ≤ d.hi.toNat → 64 < d.ebase.toNat + d.ecnt.toNat →
        exec i s = .next (failed s 6 4 f.val))

/-- Bit b of the raw integer is bit b - LO of the masked value of the field that covers it, and 0 where no field that
carries a value covers it (R134, R135). -/
def Obligations.RawIntegerBitByBit : Prop :=
  ∀ (desc : Vector Desc 16) (fv : Vector Value 16), tableValid desc →
    (∀ (f : Fin 16) (b : Nat), carriesValue desc[f] → b < fieldWidth desc[f] →
      (rawOfRecord desc fv).testBit (desc[f].lo.toNat + b) =
        if desc[f].kind = 1 then decide (b = 0 ∧ fv[f] ≠ 0)
        else if desc[f].kind = 2 then (fv[f].toNat * scaleFactor desc[f]).testBit b
        else fv[f].toNat.testBit b) ∧
    (∀ b, (∀ f : Fin 16, carriesValue desc[f] → b < desc[f].lo.toNat ∨ desc[f].hi.toNat < b) →
      (rawOfRecord desc fv).testBit b = false)

/-- R135: BF_ENCODE on a valid table writes the W bytes of the raw integer in the record's byte order, zeros up to byte
15, and RLEN = W, and changes nothing else. -/
def Obligations.BfEncodePacksTheRecord : Prop :=
  ∀ s : State, Memory.wf s.mem = true → tableValid s.desc →
    let w := recordWidth s.desc
    ∃ m, exec .bfEncode s = .next { s with mem := m, rlen := BitVec.ofNat 8 w, done := true, busy := false } ∧
      (∀ b, b < 8 * w → rbufBit { s with mem := m } w b = (rawOfRecord s.desc s.fv).testBit b) ∧
      (∀ k, w ≤ k → k < 16 → readByte m (0x080 + k) = 0) ∧
      bytesKept s.mem m 0x080 16

/-- BF_DECODE on a valid table with at least W valid bytes, where every field's bits are decodable, gives each field the
value of its bits by its kind, 0 to NONE and RESERVED, and changes nothing else (R136). -/
def Obligations.BfDecodeUnpacksTheRecord : Prop :=
  ∀ (s : State) (x : Fin 16 → Nat), tableValid s.desc → recordWidth s.desc ≤ s.rlen.toNat →
    (∀ f : Fin 16, carriesValue s.desc[f] →
      rbufField s (recordWidth s.desc) s.desc[f] (x f) ∧ decodable s s.desc[f] (x f)) →
    ∃ v : Vector Value 16, exec .bfDecode s = .next { s with fv := v, done := true, busy := false } ∧
      ∀ f : Fin 16,
        v[f].toNat =
          if s.desc[f].kind = 1 then (if x f = 0 then 0 else 1)
          else if s.desc[f].kind = 2 then x f / scaleFactor s.desc[f]
          else if s.desc[f].kind = 3 ∨ s.desc[f].kind = 4 then x f
          else 0

/-- BF_DECODE on a valid table: FORMAT sub 1 when fewer than W bytes are valid, else the first field whose bits are not
decodable is reported, FORMAT sub 3 for NUMERIC and sub 2 for ENUM; no FV changes (R136). -/
def Obligations.BfDecodeReportsTheFirstBadField : Prop :=
  ∀ s : State, tableValid s.desc →
    (s.rlen.toNat < recordWidth s.desc → exec .bfDecode s = .next (failed s 1 1 0xFF)) ∧
    (∀ (x : Fin 16 → Nat) (f : Fin 16), recordWidth s.desc ≤ s.rlen.toNat →
      (∀ g : Fin 16, carriesValue s.desc[g] → rbufField s (recordWidth s.desc) s.desc[g] (x g)) →
      (∀ g : Fin 16, g < f → decodable s s.desc[g] (x g)) → ¬decodable s s.desc[f] (x f) →
      exec .bfDecode s = .next (failed s 1 (if s.desc[f].kind = 2 then 3 else 2) f.val))

/-- Decode after encode: on a valid table whose fields hold settable values, BF_ENCODE and then BF_DECODE succeed, leave
every value as it was and set the value of NONE and RESERVED slots to 0 (R137 (a)). -/
def Obligations.DecodeAfterEncodeRestoresTheRecord : Prop :=
  ∀ s : State, Memory.wf s.mem = true → tableValid s.desc →
    (∀ f : Fin 16, settable s.etab s.desc[f] s.fv[f]) →
    ∃ (t : State) (v : Vector Value 16), exec .bfEncode s = .next t ∧
      exec .bfDecode t = .next { t with fv := v, done := true, busy := false } ∧
      ∀ f : Fin 16, v[f] = if carriesValue s.desc[f] then s.fv[f] else 0

/-- Encode after decode: when BF_DECODE succeeds, BF_ENCODE succeeds and gives the record's bytes back, with 0 in every
bit that no field covers which carries a value, and 0 or 1 in each FLAG field; bytes W to 15 become 0 and RLEN becomes W
(R137 (b)). -/
def Obligations.EncodeAfterDecodeRestoresTheBytes : Prop :=
  ∀ s t : State, Memory.wf s.mem = true → s.err = false → exec .bfDecode s = .next t → t.err = false →
    let w := recordWidth s.desc
    ∃ u, exec .bfEncode t = .next u ∧ u.err = false ∧ u.rlen.toNat = w ∧
      (∀ k, w ≤ k → k < 16 → readByte u.mem (0x080 + k) = 0) ∧
      (∀ (f : Fin 16) (b : Nat), b < fieldWidth s.desc[f] →
        s.desc[f].kind = 2 ∨ s.desc[f].kind = 3 ∨ s.desc[f].kind = 4 →
        rbufBit u w (s.desc[f].lo.toNat + b) = rbufBit s w (s.desc[f].lo.toNat + b)) ∧
      (∀ (f : Fin 16) (b : Nat), b < fieldWidth s.desc[f] → s.desc[f].kind = 1 →
        (rbufBit u w (s.desc[f].lo.toNat + b) = true ↔
          b = 0 ∧ ∃ c, c < fieldWidth s.desc[f] ∧ rbufBit s w (s.desc[f].lo.toNat + c) = true)) ∧
      (∀ b, b < 8 * w →
        (∀ f : Fin 16, carriesValue s.desc[f] → b < s.desc[f].lo.toNat ∨ s.desc[f].hi.toNat < b) →
        rbufBit u w b = false)

/-- R139: BF_SET f on a valid descriptor, every kind and every outcome; `bitlen(x) <= w` is `x < 2^w` (R5). -/
def Obligations.BfSetValidatesByKind : Prop :=
  ∀ (s : State) (f : Fin 16), descValid s.desc[f] →
    let d := s.desc[f]
    let v := s.fdata.toNat
    let run := exec (.bfSet (BitVec.ofNat 8 f.val)) s
    let stored : State := { s with fv := s.fv.set f.val s.fdata f.isLt, done := true, busy := false }
    (d.kind = 0 ∨ d.kind = 5 → run = .next (failed s 6 6 f.val)) ∧
    (d.kind = 1 → v ≤ 1 → run = .next stored) ∧
    (d.kind = 1 → 1 < v → run = .next (failed s 2 1 f.val)) ∧
    (d.kind = 2 → v * scaleFactor d < 2 ^ fieldWidth d → run = .next stored) ∧
    (d.kind = 2 → 2 ^ fieldWidth d ≤ v * scaleFactor d → run = .next (failed s 2 2 f.val)) ∧
    (d.kind = 3 → ¬memberOf s.etab d s.fdata → run = .next (failed s 3 1 f.val)) ∧
    (d.kind = 3 → memberOf s.etab d s.fdata → 2 ^ fieldWidth d ≤ v → run = .next (failed s 2 4 f.val)) ∧
    (d.kind = 3 → memberOf s.etab d s.fdata → v < 2 ^ fieldWidth d → run = .next stored) ∧
    (d.kind = 4 → v < 2 ^ fieldWidth d → run = .next stored) ∧
    (d.kind = 4 → 2 ^ fieldWidth d ≤ v → run = .next (failed s 2 3 f.val))

/-- R142: BF_GET f on a valid descriptor: the stored value, 0 for a RESERVED field, DESC sub 6 for an unused slot. -/
def Obligations.BfGetReadsTheField : Prop :=
  ∀ (s : State) (f : Fin 16), descValid s.desc[f] →
    let run := exec (.bfGet (BitVec.ofNat 8 f.val)) s
    (s.desc[f].kind = 0 → run = .next (failed s 6 6 f.val)) ∧
    (s.desc[f].kind = 5 → run = .next { s with fdata := 0, done := true, busy := false }) ∧
    (carriesValue s.desc[f] → run = .next { s with fdata := s.fv[f], done := true, busy := false })

/-- R143: BF_TEST f, k on a valid descriptor. -/
def Obligations.BfTestComparesWithTheMember : Prop :=
  ∀ (s : State) (f : Fin 16) (k : Byte), descValid s.desc[f] →
    let d := s.desc[f]
    let run := exec (.bfTest (BitVec.ofNat 8 f.val) k) s
    (d.kind ≠ 3 → run = .next (failed s 6 6 f.val)) ∧
    (d.kind = 3 → d.ecnt.toNat ≤ k.toNat → run = .next (failed s 6 6 f.val)) ∧
    (d.kind = 3 → k.toNat < d.ecnt.toNat → ∀ n : Fin 64, n.val = d.ebase.toNat + k.toNat →
      run = .next { s with t := decide (s.fv[f] = s.etab[n].setWidth 128), done := true, busy := false })

/-- R144: BF_ECHK f on a valid descriptor. -/
def Obligations.BfEchkChecksMembership : Prop :=
  ∀ (s : State) (f : Fin 16), descValid s.desc[f] →
    let run := exec (.bfEchk (BitVec.ofNat 8 f.val)) s
    (s.desc[f].kind ≠ 3 → run = .next (failed s 6 6 f.val)) ∧
    (s.desc[f].kind = 3 → ¬memberOf s.etab s.desc[f] s.fv[f] → run = .next (failed s 1 2 f.val)) ∧
    (s.desc[f].kind = 3 → memberOf s.etab s.desc[f] s.fv[f] →
      run = .next { s with done := true, busy := false })

/-- R145: BF_CLR zeroes every FV and changes nothing else. -/
def Obligations.BfClrZeroesEveryValue : Prop :=
  ∀ s : State, ∃ v : Vector Value 16, (∀ f : Fin 16, v[f] = 0) ∧
    exec .bfClr s = .next { s with fv := v, done := true, busy := false }
end

