-- ==== Sys2Proof/Laws/Memory.lean ====
section
/-! SUPPORT. The laws of the byte buffers: read after write, the frame of a write, and the canonical form, which
every memory operation keeps and which makes equal memories equal data. -/

namespace Sys2Proof.Machine

/-! ## The canonical form -/

theorem wf_cons (a : Nat) (b : Byte) (m : Memory) :
    Memory.wf ((a, b) :: m) = true ↔ b ≠ 0 ∧ (∀ c ∈ m, a < c.1) ∧ Memory.wf m = true := by
  simp [Memory.wf, and_assoc]

theorem reset_mem_wf : Memory.wf State.reset.mem = true := rfl

/-- An address below every listed one is unlisted. -/
theorem readByte_of_lt (m : Memory) (x : Nat) (h : ∀ c ∈ m, x < c.1) : readByte m x = 0 := by
  induction m with
  | nil => rfl
  | cons c m ih =>
    obtain ⟨a, b⟩ := c
    have ha : x < a := h (a, b) (by simp)
    simp only [readByte, Nat.ne_of_lt ha, if_false]
    exact ih fun c hc => h c (by simp [hc])

/-- The addresses of a memory after a write are the old ones and the written one. -/
theorem mem_writeByte (m : Memory) (x : Nat) (v : Byte) (c : Host.Cell) (h : c ∈ writeByte m x v) :
    c.1 = x ∨ c ∈ m := by
  induction m with
  | nil =>
    unfold writeByte at h
    split at h <;> simp_all
  | cons d m ih =>
    obtain ⟨a, b⟩ := d
    unfold writeByte at h
    split at h
    · split at h <;> simp_all
      rcases h with rfl | h <;> simp_all
    · split at h
      · split at h
        · exact .inr (by simp [h])
        · rcases List.mem_cons.1 h with rfl | h
          · exact .inl rfl
          · exact .inr (by simp [h])
      · rcases List.mem_cons.1 h with rfl | h
        · simp
        · rcases ih h with h | h <;> simp [h]

theorem writeByte_wf (m : Memory) (x : Nat) (v : Byte) (h : Memory.wf m = true) :
    Memory.wf (writeByte m x v) = true := by
  induction m with
  | nil =>
    unfold writeByte
    split <;> simp_all [Memory.wf]
  | cons d m ih =>
    obtain ⟨a, b⟩ := d
    obtain ⟨hb, ha, hm⟩ := (wf_cons a b m).1 h
    unfold writeByte
    split
    next hx =>
      split
      · exact h
      next hv =>
        refine (wf_cons _ _ _).2 ⟨hv, ?_, h⟩
        intro c hc
        rcases List.mem_cons.1 hc with rfl | hc
        · exact hx
        · exact Nat.lt_trans hx (ha c hc)
    next hx =>
      split
      next he =>
        split
        · exact hm
        next hv => exact (wf_cons _ _ _).2 ⟨hv, fun c hc => he ▸ ha c hc, hm⟩
      next he =>
        refine (wf_cons _ _ _).2 ⟨hb, ?_, ih hm⟩
        intro c hc
        rcases mem_writeByte m x v c hc with h' | h'
        · omega
        · exact ha c h'

theorem writeBytes_wf (bs : List Byte) (m : Memory) (x : Nat) (h : Memory.wf m = true) :
    Memory.wf (writeBytes m x bs) = true := by
  induction bs generalizing m x with
  | nil => exact h
  | cons b bs ih => exact ih _ _ (writeByte_wf m x b h)

/-- Equal bytes everywhere make canonical memories equal. -/
theorem memory_ext (m n : Memory) (hm : Memory.wf m = true) (hn : Memory.wf n = true)
    (h : ∀ x, readByte m x = readByte n x) : m = n := by
  induction m generalizing n with
  | nil =>
    cases n with
    | nil => rfl
    | cons d n =>
      obtain ⟨a, b⟩ := d
      have := h a
      simp [readByte] at this
      exact absurd this.symm ((wf_cons a b n).1 hn).1
  | cons d m ih =>
    obtain ⟨a, b⟩ := d
    obtain ⟨hb, ha, hm'⟩ := (wf_cons a b m).1 hm
    cases n with
    | nil =>
      have := h a
      simp [readByte] at this
      exact absurd this hb
    | cons e n =>
      obtain ⟨a', b'⟩ := e
      obtain ⟨hb', ha', hn'⟩ := (wf_cons a' b' n).1 hn
      have haa : a = a' := by
        rcases Nat.lt_trichotomy a a' with hlt | heq | hgt
        · have := h a
          simp only [readByte, if_true, Nat.ne_of_lt hlt, if_false] at this
          rw [readByte_of_lt n a fun c hc => Nat.lt_trans hlt (ha' c hc)] at this
          exact absurd this hb
        · exact heq
        · have := h a'
          simp only [readByte, if_true, Nat.ne_of_lt hgt, if_false] at this
          rw [readByte_of_lt m a' fun c hc => Nat.lt_trans hgt (ha c hc)] at this
          exact absurd this.symm hb'
      subst haa
      have hbb : b = b' := by simpa [readByte] using h a
      subst hbb
      refine congrArg _ (ih n hm' hn' fun x => ?_)
      by_cases hx : x = a
      · subst hx
        rw [readByte_of_lt m x ha, readByte_of_lt n x ha']
      · simpa [readByte, hx] using h x

/-! ## Read after write -/

theorem readByte_writeByte_other (m : Memory) (x y : Nat) (v : Byte) (h : y ≠ x) :
    readByte (writeByte m x v) y = readByte m y := by
  induction m with
  | nil =>
    unfold writeByte
    split <;> simp [readByte, h]
  | cons d m ih =>
    obtain ⟨a, b⟩ := d
    unfold writeByte
    split
    · split <;> simp [readByte, h]
    · split
      next he =>
        subst he
        split <;> simp [readByte, h]
      · simp [readByte, ih]

theorem readByte_writeByte_same (m : Memory) (x : Nat) (v : Byte) (h : Memory.wf m = true) :
    readByte (writeByte m x v) x = v := by
  induction m with
  | nil =>
    unfold writeByte
    split <;> simp_all [readByte]
  | cons d m ih =>
    obtain ⟨a, b⟩ := d
    obtain ⟨_, ha, hm⟩ := (wf_cons a b m).1 h
    unfold writeByte
    split
    next hx =>
      split
      next hv =>
        rw [hv]
        exact readByte_of_lt _ x fun c hc => by
          rcases List.mem_cons.1 hc with rfl | hc
          · exact hx
          · exact Nat.lt_trans hx (ha c hc)
      · simp [readByte]
    next hx =>
      split
      next he =>
        subst he
        split
        next hv =>
          rw [hv]
          exact readByte_of_lt m x ha
        · simp [readByte]
      next he => simp [readByte, he, ih hm]

/-- A byte outside the written string reads as before. -/
theorem readByte_writeBytes_outside (bs : List Byte) (m : Memory) (x y : Nat)
    (h : y < x ∨ x + bs.length ≤ y) : readByte (writeBytes m x bs) y = readByte m y := by
  induction bs generalizing m x with
  | nil => rfl
  | cons b bs ih =>
    simp only [List.length_cons] at h
    rw [writeBytes, ih _ _ (by omega), readByte_writeByte_other _ _ _ _ (by omega)]

/-- Byte k of the written string is read back. -/
theorem readByte_writeBytes_inside (bs : List Byte) (m : Memory) (x k : Nat) (hm : Memory.wf m = true)
    (hk : k < bs.length) : readByte (writeBytes m x bs) (x + k) = bs[k] := by
  induction bs generalizing m x k with
  | nil => simp at hk
  | cons b bs ih =>
    rw [writeBytes]
    cases k with
    | zero =>
      rw [readByte_writeBytes_outside _ _ _ _ (by omega)]
      simpa using readByte_writeByte_same m x b hm
    | succ k =>
      have := ih (writeByte m x b) (x + 1) k (writeByte_wf m x b hm) (by simpa using hk)
      simpa [Nat.add_assoc, Nat.add_comm 1 k] using this

/-- The addresses listed after a string write are the old ones and those of the string. -/
theorem mem_writeBytes (bs : List Byte) (m : Memory) (x : Nat) (c : Host.Cell)
    (h : c ∈ writeBytes m x bs) : (x ≤ c.1 ∧ c.1 < x + bs.length) ∨ c ∈ m := by
  induction bs generalizing m x with
  | nil => exact .inr h
  | cons b bs ih =>
    rcases ih _ _ h with h | h
    · left
      simp only [List.length_cons]
      omega
    · rcases mem_writeByte m x b c h with h | h
      · left
        simp only [List.length_cons]
        omega
      · exact .inr h

/-! ## Byte strings read from memory -/

@[simp] theorem readBytes_length (m : Memory) (a n : Nat) : (readBytes m a n).length = n := by
  simp [readBytes]

@[simp] theorem readBytes_getElem (m : Memory) (a n k : Nat) (h : k < (readBytes m a n).length) :
    (readBytes m a n)[k] = readByte m (a + k) := by
  simp [readBytes]

/-- What was written as a string is read back as one. -/
theorem readBytes_writeBytes_same (bs : List Byte) (m : Memory) (x : Nat) (hm : Memory.wf m = true) :
    readBytes (writeBytes m x bs) x bs.length = bs := by
  apply List.ext_getElem
  · simp
  · intro k h1 h2
    rw [readBytes_getElem, readByte_writeBytes_inside bs m x k hm h2]

/-- A string read outside the written one is as before. -/
theorem readBytes_writeBytes_outside (bs : List Byte) (m : Memory) (x y n : Nat)
    (h : y + n ≤ x ∨ x + bs.length ≤ y) : readBytes (writeBytes m x bs) y n = readBytes m y n := by
  apply List.ext_getElem
  · simp
  · intro k h1 h2
    simp only [readBytes_length] at h1
    rw [readBytes_getElem, readBytes_getElem, readByte_writeBytes_outside _ _ _ _ (by omega)]

end Sys2Proof.Machine
end

