-- ==== Sys2Proof/Laws/State.lean ====
section
/-! SUPPORT. What each named update of the state does to each field: one lemma per field per update. -/

namespace Sys2Proof.Machine

/-! ## setMem -/

@[simp] theorem setMem_cmdr (m : Memory) (s : State) : (setMem m s).cmdr = s.cmdr := rfl
@[simp] theorem setMem_busy (m : Memory) (s : State) : (setMem m s).busy = s.busy := rfl
@[simp] theorem setMem_done (m : Memory) (s : State) : (setMem m s).done = s.done := rfl
@[simp] theorem setMem_err (m : Memory) (s : State) : (setMem m s).err = s.err := rfl
@[simp] theorem setMem_werr (m : Memory) (s : State) : (setMem m s).werr = s.werr := rfl
@[simp] theorem setMem_t (m : Memory) (s : State) : (setMem m s).t = s.t := rfl
@[simp] theorem setMem_doneIE (m : Memory) (s : State) : (setMem m s).doneIE = s.doneIE := rfl
@[simp] theorem setMem_errIE (m : Memory) (s : State) : (setMem m s).errIE = s.errIE := rfl
@[simp] theorem setMem_werrIE (m : Memory) (s : State) : (setMem m s).werrIE = s.werrIE := rfl
@[simp] theorem setMem_errcode (m : Memory) (s : State) : (setMem m s).errcode = s.errcode := rfl
@[simp] theorem setMem_errinfo (m : Memory) (s : State) : (setMem m s).errinfo = s.errinfo := rfl
@[simp] theorem setMem_klen (m : Memory) (s : State) : (setMem m s).klen = s.klen := rfl
@[simp] theorem setMem_key (m : Memory) (s : State) : (setMem m s).key = s.key := rfl
@[simp] theorem setMem_dir (m : Memory) (s : State) : (setMem m s).dir = s.dir := rfl
@[simp] theorem setMem_devaddr (m : Memory) (s : State) : (setMem m s).devaddr = s.devaddr := rfl
@[simp] theorem setMem_fcnt (m : Memory) (s : State) : (setMem m s).fcnt = s.fcnt := rfl
@[simp] theorem setMem_dlen (m : Memory) (s : State) : (setMem m s).dlen = s.dlen := rfl
@[simp] theorem setMem_tag (m : Memory) (s : State) : (setMem m s).tag = s.tag := rfl
@[simp] theorem setMem_rlen (m : Memory) (s : State) : (setMem m s).rlen = s.rlen := rfl
@[simp] theorem setMem_le (m : Memory) (s : State) : (setMem m s).le = s.le := rfl
@[simp] theorem setMem_strict (m : Memory) (s : State) : (setMem m s).strict = s.strict := rfl
@[simp] theorem setMem_fdata (m : Memory) (s : State) : (setMem m s).fdata = s.fdata := rfl
@[simp] theorem setMem_desc (m : Memory) (s : State) : (setMem m s).desc = s.desc := rfl
@[simp] theorem setMem_etab (m : Memory) (s : State) : (setMem m s).etab = s.etab := rfl
@[simp] theorem setMem_fv (m : Memory) (s : State) : (setMem m s).fv = s.fv := rfl
@[simp] theorem setMem_mem (m : Memory) (s : State) : (setMem m s).mem = m := rfl
@[simp] theorem setMem_script (m : Memory) (s : State) : (setMem m s).script = s.script := rfl
@[simp] theorem setMem_portAnswer (m : Memory) (s : State) : (setMem m s).portAnswer = s.portAnswer := rfl

/-! ## setTag -/

@[simp] theorem setTag_cmdr (x : Block) (s : State) : (setTag x s).cmdr = s.cmdr := rfl
@[simp] theorem setTag_busy (x : Block) (s : State) : (setTag x s).busy = s.busy := rfl
@[simp] theorem setTag_done (x : Block) (s : State) : (setTag x s).done = s.done := rfl
@[simp] theorem setTag_err (x : Block) (s : State) : (setTag x s).err = s.err := rfl
@[simp] theorem setTag_werr (x : Block) (s : State) : (setTag x s).werr = s.werr := rfl
@[simp] theorem setTag_t (x : Block) (s : State) : (setTag x s).t = s.t := rfl
@[simp] theorem setTag_doneIE (x : Block) (s : State) : (setTag x s).doneIE = s.doneIE := rfl
@[simp] theorem setTag_errIE (x : Block) (s : State) : (setTag x s).errIE = s.errIE := rfl
@[simp] theorem setTag_werrIE (x : Block) (s : State) : (setTag x s).werrIE = s.werrIE := rfl
@[simp] theorem setTag_errcode (x : Block) (s : State) : (setTag x s).errcode = s.errcode := rfl
@[simp] theorem setTag_errinfo (x : Block) (s : State) : (setTag x s).errinfo = s.errinfo := rfl
@[simp] theorem setTag_klen (x : Block) (s : State) : (setTag x s).klen = s.klen := rfl
@[simp] theorem setTag_key (x : Block) (s : State) : (setTag x s).key = s.key := rfl
@[simp] theorem setTag_dir (x : Block) (s : State) : (setTag x s).dir = s.dir := rfl
@[simp] theorem setTag_devaddr (x : Block) (s : State) : (setTag x s).devaddr = s.devaddr := rfl
@[simp] theorem setTag_fcnt (x : Block) (s : State) : (setTag x s).fcnt = s.fcnt := rfl
@[simp] theorem setTag_dlen (x : Block) (s : State) : (setTag x s).dlen = s.dlen := rfl
@[simp] theorem setTag_tag (x : Block) (s : State) : (setTag x s).tag = x := rfl
@[simp] theorem setTag_rlen (x : Block) (s : State) : (setTag x s).rlen = s.rlen := rfl
@[simp] theorem setTag_le (x : Block) (s : State) : (setTag x s).le = s.le := rfl
@[simp] theorem setTag_strict (x : Block) (s : State) : (setTag x s).strict = s.strict := rfl
@[simp] theorem setTag_fdata (x : Block) (s : State) : (setTag x s).fdata = s.fdata := rfl
@[simp] theorem setTag_desc (x : Block) (s : State) : (setTag x s).desc = s.desc := rfl
@[simp] theorem setTag_etab (x : Block) (s : State) : (setTag x s).etab = s.etab := rfl
@[simp] theorem setTag_fv (x : Block) (s : State) : (setTag x s).fv = s.fv := rfl
@[simp] theorem setTag_mem (x : Block) (s : State) : (setTag x s).mem = s.mem := rfl
@[simp] theorem setTag_script (x : Block) (s : State) : (setTag x s).script = s.script := rfl
@[simp] theorem setTag_portAnswer (x : Block) (s : State) : (setTag x s).portAnswer = s.portAnswer := rfl

/-! ## setFdata -/

@[simp] theorem setFdata_cmdr (v : Value) (s : State) : (setFdata v s).cmdr = s.cmdr := rfl
@[simp] theorem setFdata_busy (v : Value) (s : State) : (setFdata v s).busy = s.busy := rfl
@[simp] theorem setFdata_done (v : Value) (s : State) : (setFdata v s).done = s.done := rfl
@[simp] theorem setFdata_err (v : Value) (s : State) : (setFdata v s).err = s.err := rfl
@[simp] theorem setFdata_werr (v : Value) (s : State) : (setFdata v s).werr = s.werr := rfl
@[simp] theorem setFdata_t (v : Value) (s : State) : (setFdata v s).t = s.t := rfl
@[simp] theorem setFdata_doneIE (v : Value) (s : State) : (setFdata v s).doneIE = s.doneIE := rfl
@[simp] theorem setFdata_errIE (v : Value) (s : State) : (setFdata v s).errIE = s.errIE := rfl
@[simp] theorem setFdata_werrIE (v : Value) (s : State) : (setFdata v s).werrIE = s.werrIE := rfl
@[simp] theorem setFdata_errcode (v : Value) (s : State) : (setFdata v s).errcode = s.errcode := rfl
@[simp] theorem setFdata_errinfo (v : Value) (s : State) : (setFdata v s).errinfo = s.errinfo := rfl
@[simp] theorem setFdata_klen (v : Value) (s : State) : (setFdata v s).klen = s.klen := rfl
@[simp] theorem setFdata_key (v : Value) (s : State) : (setFdata v s).key = s.key := rfl
@[simp] theorem setFdata_dir (v : Value) (s : State) : (setFdata v s).dir = s.dir := rfl
@[simp] theorem setFdata_devaddr (v : Value) (s : State) : (setFdata v s).devaddr = s.devaddr := rfl
@[simp] theorem setFdata_fcnt (v : Value) (s : State) : (setFdata v s).fcnt = s.fcnt := rfl
@[simp] theorem setFdata_dlen (v : Value) (s : State) : (setFdata v s).dlen = s.dlen := rfl
@[simp] theorem setFdata_tag (v : Value) (s : State) : (setFdata v s).tag = s.tag := rfl
@[simp] theorem setFdata_rlen (v : Value) (s : State) : (setFdata v s).rlen = s.rlen := rfl
@[simp] theorem setFdata_le (v : Value) (s : State) : (setFdata v s).le = s.le := rfl
@[simp] theorem setFdata_strict (v : Value) (s : State) : (setFdata v s).strict = s.strict := rfl
@[simp] theorem setFdata_fdata (v : Value) (s : State) : (setFdata v s).fdata = v := rfl
@[simp] theorem setFdata_desc (v : Value) (s : State) : (setFdata v s).desc = s.desc := rfl
@[simp] theorem setFdata_etab (v : Value) (s : State) : (setFdata v s).etab = s.etab := rfl
@[simp] theorem setFdata_fv (v : Value) (s : State) : (setFdata v s).fv = s.fv := rfl
@[simp] theorem setFdata_mem (v : Value) (s : State) : (setFdata v s).mem = s.mem := rfl
@[simp] theorem setFdata_script (v : Value) (s : State) : (setFdata v s).script = s.script := rfl
@[simp] theorem setFdata_portAnswer (v : Value) (s : State) : (setFdata v s).portAnswer = s.portAnswer := rfl

/-! ## setFv -/

@[simp] theorem setFv_cmdr (f : Fin 16) (v : Value) (s : State) : (setFv f v s).cmdr = s.cmdr := rfl
@[simp] theorem setFv_busy (f : Fin 16) (v : Value) (s : State) : (setFv f v s).busy = s.busy := rfl
@[simp] theorem setFv_done (f : Fin 16) (v : Value) (s : State) : (setFv f v s).done = s.done := rfl
@[simp] theorem setFv_err (f : Fin 16) (v : Value) (s : State) : (setFv f v s).err = s.err := rfl
@[simp] theorem setFv_werr (f : Fin 16) (v : Value) (s : State) : (setFv f v s).werr = s.werr := rfl
@[simp] theorem setFv_t (f : Fin 16) (v : Value) (s : State) : (setFv f v s).t = s.t := rfl
@[simp] theorem setFv_doneIE (f : Fin 16) (v : Value) (s : State) : (setFv f v s).doneIE = s.doneIE := rfl
@[simp] theorem setFv_errIE (f : Fin 16) (v : Value) (s : State) : (setFv f v s).errIE = s.errIE := rfl
@[simp] theorem setFv_werrIE (f : Fin 16) (v : Value) (s : State) : (setFv f v s).werrIE = s.werrIE := rfl
@[simp] theorem setFv_errcode (f : Fin 16) (v : Value) (s : State) : (setFv f v s).errcode = s.errcode := rfl
@[simp] theorem setFv_errinfo (f : Fin 16) (v : Value) (s : State) : (setFv f v s).errinfo = s.errinfo := rfl
@[simp] theorem setFv_klen (f : Fin 16) (v : Value) (s : State) : (setFv f v s).klen = s.klen := rfl
@[simp] theorem setFv_key (f : Fin 16) (v : Value) (s : State) : (setFv f v s).key = s.key := rfl
@[simp] theorem setFv_dir (f : Fin 16) (v : Value) (s : State) : (setFv f v s).dir = s.dir := rfl
@[simp] theorem setFv_devaddr (f : Fin 16) (v : Value) (s : State) : (setFv f v s).devaddr = s.devaddr := rfl
@[simp] theorem setFv_fcnt (f : Fin 16) (v : Value) (s : State) : (setFv f v s).fcnt = s.fcnt := rfl
@[simp] theorem setFv_dlen (f : Fin 16) (v : Value) (s : State) : (setFv f v s).dlen = s.dlen := rfl
@[simp] theorem setFv_tag (f : Fin 16) (v : Value) (s : State) : (setFv f v s).tag = s.tag := rfl
@[simp] theorem setFv_rlen (f : Fin 16) (v : Value) (s : State) : (setFv f v s).rlen = s.rlen := rfl
@[simp] theorem setFv_le (f : Fin 16) (v : Value) (s : State) : (setFv f v s).le = s.le := rfl
@[simp] theorem setFv_strict (f : Fin 16) (v : Value) (s : State) : (setFv f v s).strict = s.strict := rfl
@[simp] theorem setFv_fdata (f : Fin 16) (v : Value) (s : State) : (setFv f v s).fdata = s.fdata := rfl
@[simp] theorem setFv_desc (f : Fin 16) (v : Value) (s : State) : (setFv f v s).desc = s.desc := rfl
@[simp] theorem setFv_etab (f : Fin 16) (v : Value) (s : State) : (setFv f v s).etab = s.etab := rfl
@[simp] theorem setFv_fv (f : Fin 16) (v : Value) (s : State) :
    (setFv f v s).fv = s.fv.set f.val v f.isLt := rfl
@[simp] theorem setFv_mem (f : Fin 16) (v : Value) (s : State) : (setFv f v s).mem = s.mem := rfl
@[simp] theorem setFv_script (f : Fin 16) (v : Value) (s : State) : (setFv f v s).script = s.script := rfl
@[simp] theorem setFv_portAnswer (f : Fin 16) (v : Value) (s : State) :
    (setFv f v s).portAnswer = s.portAnswer := rfl

/-! ## setAllFv -/

@[simp] theorem setAllFv_cmdr (v : Vector Value 16) (s : State) : (setAllFv v s).cmdr = s.cmdr := rfl
@[simp] theorem setAllFv_busy (v : Vector Value 16) (s : State) : (setAllFv v s).busy = s.busy := rfl
@[simp] theorem setAllFv_done (v : Vector Value 16) (s : State) : (setAllFv v s).done = s.done := rfl
@[simp] theorem setAllFv_err (v : Vector Value 16) (s : State) : (setAllFv v s).err = s.err := rfl
@[simp] theorem setAllFv_werr (v : Vector Value 16) (s : State) : (setAllFv v s).werr = s.werr := rfl
@[simp] theorem setAllFv_t (v : Vector Value 16) (s : State) : (setAllFv v s).t = s.t := rfl
@[simp] theorem setAllFv_doneIE (v : Vector Value 16) (s : State) : (setAllFv v s).doneIE = s.doneIE := rfl
@[simp] theorem setAllFv_errIE (v : Vector Value 16) (s : State) : (setAllFv v s).errIE = s.errIE := rfl
@[simp] theorem setAllFv_werrIE (v : Vector Value 16) (s : State) : (setAllFv v s).werrIE = s.werrIE := rfl
@[simp] theorem setAllFv_errcode (v : Vector Value 16) (s : State) : (setAllFv v s).errcode = s.errcode := rfl
@[simp] theorem setAllFv_errinfo (v : Vector Value 16) (s : State) : (setAllFv v s).errinfo = s.errinfo := rfl
@[simp] theorem setAllFv_klen (v : Vector Value 16) (s : State) : (setAllFv v s).klen = s.klen := rfl
@[simp] theorem setAllFv_key (v : Vector Value 16) (s : State) : (setAllFv v s).key = s.key := rfl
@[simp] theorem setAllFv_dir (v : Vector Value 16) (s : State) : (setAllFv v s).dir = s.dir := rfl
@[simp] theorem setAllFv_devaddr (v : Vector Value 16) (s : State) : (setAllFv v s).devaddr = s.devaddr := rfl
@[simp] theorem setAllFv_fcnt (v : Vector Value 16) (s : State) : (setAllFv v s).fcnt = s.fcnt := rfl
@[simp] theorem setAllFv_dlen (v : Vector Value 16) (s : State) : (setAllFv v s).dlen = s.dlen := rfl
@[simp] theorem setAllFv_tag (v : Vector Value 16) (s : State) : (setAllFv v s).tag = s.tag := rfl
@[simp] theorem setAllFv_rlen (v : Vector Value 16) (s : State) : (setAllFv v s).rlen = s.rlen := rfl
@[simp] theorem setAllFv_le (v : Vector Value 16) (s : State) : (setAllFv v s).le = s.le := rfl
@[simp] theorem setAllFv_strict (v : Vector Value 16) (s : State) : (setAllFv v s).strict = s.strict := rfl
@[simp] theorem setAllFv_fdata (v : Vector Value 16) (s : State) : (setAllFv v s).fdata = s.fdata := rfl
@[simp] theorem setAllFv_desc (v : Vector Value 16) (s : State) : (setAllFv v s).desc = s.desc := rfl
@[simp] theorem setAllFv_etab (v : Vector Value 16) (s : State) : (setAllFv v s).etab = s.etab := rfl
@[simp] theorem setAllFv_fv (v : Vector Value 16) (s : State) : (setAllFv v s).fv = v := rfl
@[simp] theorem setAllFv_mem (v : Vector Value 16) (s : State) : (setAllFv v s).mem = s.mem := rfl
@[simp] theorem setAllFv_script (v : Vector Value 16) (s : State) : (setAllFv v s).script = s.script := rfl
@[simp] theorem setAllFv_portAnswer (v : Vector Value 16) (s : State) :
    (setAllFv v s).portAnswer = s.portAnswer := rfl

/-! ## setRlen -/

@[simp] theorem setRlen_cmdr (n : Byte) (s : State) : (setRlen n s).cmdr = s.cmdr := rfl
@[simp] theorem setRlen_busy (n : Byte) (s : State) : (setRlen n s).busy = s.busy := rfl
@[simp] theorem setRlen_done (n : Byte) (s : State) : (setRlen n s).done = s.done := rfl
@[simp] theorem setRlen_err (n : Byte) (s : State) : (setRlen n s).err = s.err := rfl
@[simp] theorem setRlen_werr (n : Byte) (s : State) : (setRlen n s).werr = s.werr := rfl
@[simp] theorem setRlen_t (n : Byte) (s : State) : (setRlen n s).t = s.t := rfl
@[simp] theorem setRlen_doneIE (n : Byte) (s : State) : (setRlen n s).doneIE = s.doneIE := rfl
@[simp] theorem setRlen_errIE (n : Byte) (s : State) : (setRlen n s).errIE = s.errIE := rfl
@[simp] theorem setRlen_werrIE (n : Byte) (s : State) : (setRlen n s).werrIE = s.werrIE := rfl
@[simp] theorem setRlen_errcode (n : Byte) (s : State) : (setRlen n s).errcode = s.errcode := rfl
@[simp] theorem setRlen_errinfo (n : Byte) (s : State) : (setRlen n s).errinfo = s.errinfo := rfl
@[simp] theorem setRlen_klen (n : Byte) (s : State) : (setRlen n s).klen = s.klen := rfl
@[simp] theorem setRlen_key (n : Byte) (s : State) : (setRlen n s).key = s.key := rfl
@[simp] theorem setRlen_dir (n : Byte) (s : State) : (setRlen n s).dir = s.dir := rfl
@[simp] theorem setRlen_devaddr (n : Byte) (s : State) : (setRlen n s).devaddr = s.devaddr := rfl
@[simp] theorem setRlen_fcnt (n : Byte) (s : State) : (setRlen n s).fcnt = s.fcnt := rfl
@[simp] theorem setRlen_dlen (n : Byte) (s : State) : (setRlen n s).dlen = s.dlen := rfl
@[simp] theorem setRlen_tag (n : Byte) (s : State) : (setRlen n s).tag = s.tag := rfl
@[simp] theorem setRlen_rlen (n : Byte) (s : State) : (setRlen n s).rlen = n := rfl
@[simp] theorem setRlen_le (n : Byte) (s : State) : (setRlen n s).le = s.le := rfl
@[simp] theorem setRlen_strict (n : Byte) (s : State) : (setRlen n s).strict = s.strict := rfl
@[simp] theorem setRlen_fdata (n : Byte) (s : State) : (setRlen n s).fdata = s.fdata := rfl
@[simp] theorem setRlen_desc (n : Byte) (s : State) : (setRlen n s).desc = s.desc := rfl
@[simp] theorem setRlen_etab (n : Byte) (s : State) : (setRlen n s).etab = s.etab := rfl
@[simp] theorem setRlen_fv (n : Byte) (s : State) : (setRlen n s).fv = s.fv := rfl
@[simp] theorem setRlen_mem (n : Byte) (s : State) : (setRlen n s).mem = s.mem := rfl
@[simp] theorem setRlen_script (n : Byte) (s : State) : (setRlen n s).script = s.script := rfl
@[simp] theorem setRlen_portAnswer (n : Byte) (s : State) : (setRlen n s).portAnswer = s.portAnswer := rfl

/-! ## setT -/

@[simp] theorem setT_cmdr (b : Bool) (s : State) : (setT b s).cmdr = s.cmdr := rfl
@[simp] theorem setT_busy (b : Bool) (s : State) : (setT b s).busy = s.busy := rfl
@[simp] theorem setT_done (b : Bool) (s : State) : (setT b s).done = s.done := rfl
@[simp] theorem setT_err (b : Bool) (s : State) : (setT b s).err = s.err := rfl
@[simp] theorem setT_werr (b : Bool) (s : State) : (setT b s).werr = s.werr := rfl
@[simp] theorem setT_t (b : Bool) (s : State) : (setT b s).t = b := rfl
@[simp] theorem setT_doneIE (b : Bool) (s : State) : (setT b s).doneIE = s.doneIE := rfl
@[simp] theorem setT_errIE (b : Bool) (s : State) : (setT b s).errIE = s.errIE := rfl
@[simp] theorem setT_werrIE (b : Bool) (s : State) : (setT b s).werrIE = s.werrIE := rfl
@[simp] theorem setT_errcode (b : Bool) (s : State) : (setT b s).errcode = s.errcode := rfl
@[simp] theorem setT_errinfo (b : Bool) (s : State) : (setT b s).errinfo = s.errinfo := rfl
@[simp] theorem setT_klen (b : Bool) (s : State) : (setT b s).klen = s.klen := rfl
@[simp] theorem setT_key (b : Bool) (s : State) : (setT b s).key = s.key := rfl
@[simp] theorem setT_dir (b : Bool) (s : State) : (setT b s).dir = s.dir := rfl
@[simp] theorem setT_devaddr (b : Bool) (s : State) : (setT b s).devaddr = s.devaddr := rfl
@[simp] theorem setT_fcnt (b : Bool) (s : State) : (setT b s).fcnt = s.fcnt := rfl
@[simp] theorem setT_dlen (b : Bool) (s : State) : (setT b s).dlen = s.dlen := rfl
@[simp] theorem setT_tag (b : Bool) (s : State) : (setT b s).tag = s.tag := rfl
@[simp] theorem setT_rlen (b : Bool) (s : State) : (setT b s).rlen = s.rlen := rfl
@[simp] theorem setT_le (b : Bool) (s : State) : (setT b s).le = s.le := rfl
@[simp] theorem setT_strict (b : Bool) (s : State) : (setT b s).strict = s.strict := rfl
@[simp] theorem setT_fdata (b : Bool) (s : State) : (setT b s).fdata = s.fdata := rfl
@[simp] theorem setT_desc (b : Bool) (s : State) : (setT b s).desc = s.desc := rfl
@[simp] theorem setT_etab (b : Bool) (s : State) : (setT b s).etab = s.etab := rfl
@[simp] theorem setT_fv (b : Bool) (s : State) : (setT b s).fv = s.fv := rfl
@[simp] theorem setT_mem (b : Bool) (s : State) : (setT b s).mem = s.mem := rfl
@[simp] theorem setT_script (b : Bool) (s : State) : (setT b s).script = s.script := rfl
@[simp] theorem setT_portAnswer (b : Bool) (s : State) : (setT b s).portAnswer = s.portAnswer := rfl

/-! ## setWerr -/

@[simp] theorem setWerr_cmdr (s : State) : (setWerr s).cmdr = s.cmdr := rfl
@[simp] theorem setWerr_busy (s : State) : (setWerr s).busy = s.busy := rfl
@[simp] theorem setWerr_done (s : State) : (setWerr s).done = s.done := rfl
@[simp] theorem setWerr_err (s : State) : (setWerr s).err = s.err := rfl
@[simp] theorem setWerr_werr (s : State) : (setWerr s).werr = true := rfl
@[simp] theorem setWerr_t (s : State) : (setWerr s).t = s.t := rfl
@[simp] theorem setWerr_doneIE (s : State) : (setWerr s).doneIE = s.doneIE := rfl
@[simp] theorem setWerr_errIE (s : State) : (setWerr s).errIE = s.errIE := rfl
@[simp] theorem setWerr_werrIE (s : State) : (setWerr s).werrIE = s.werrIE := rfl
@[simp] theorem setWerr_errcode (s : State) : (setWerr s).errcode = s.errcode := rfl
@[simp] theorem setWerr_errinfo (s : State) : (setWerr s).errinfo = s.errinfo := rfl
@[simp] theorem setWerr_klen (s : State) : (setWerr s).klen = s.klen := rfl
@[simp] theorem setWerr_key (s : State) : (setWerr s).key = s.key := rfl
@[simp] theorem setWerr_dir (s : State) : (setWerr s).dir = s.dir := rfl
@[simp] theorem setWerr_devaddr (s : State) : (setWerr s).devaddr = s.devaddr := rfl
@[simp] theorem setWerr_fcnt (s : State) : (setWerr s).fcnt = s.fcnt := rfl
@[simp] theorem setWerr_dlen (s : State) : (setWerr s).dlen = s.dlen := rfl
@[simp] theorem setWerr_tag (s : State) : (setWerr s).tag = s.tag := rfl
@[simp] theorem setWerr_rlen (s : State) : (setWerr s).rlen = s.rlen := rfl
@[simp] theorem setWerr_le (s : State) : (setWerr s).le = s.le := rfl
@[simp] theorem setWerr_strict (s : State) : (setWerr s).strict = s.strict := rfl
@[simp] theorem setWerr_fdata (s : State) : (setWerr s).fdata = s.fdata := rfl
@[simp] theorem setWerr_desc (s : State) : (setWerr s).desc = s.desc := rfl
@[simp] theorem setWerr_etab (s : State) : (setWerr s).etab = s.etab := rfl
@[simp] theorem setWerr_fv (s : State) : (setWerr s).fv = s.fv := rfl
@[simp] theorem setWerr_mem (s : State) : (setWerr s).mem = s.mem := rfl
@[simp] theorem setWerr_script (s : State) : (setWerr s).script = s.script := rfl
@[simp] theorem setWerr_portAnswer (s : State) : (setWerr s).portAnswer = s.portAnswer := rfl

/-! ## setScript -/

@[simp] theorem setScript_cmdr (es : List Event) (s : State) : (setScript es s).cmdr = s.cmdr := rfl
@[simp] theorem setScript_busy (es : List Event) (s : State) : (setScript es s).busy = s.busy := rfl
@[simp] theorem setScript_done (es : List Event) (s : State) : (setScript es s).done = s.done := rfl
@[simp] theorem setScript_err (es : List Event) (s : State) : (setScript es s).err = s.err := rfl
@[simp] theorem setScript_werr (es : List Event) (s : State) : (setScript es s).werr = s.werr := rfl
@[simp] theorem setScript_t (es : List Event) (s : State) : (setScript es s).t = s.t := rfl
@[simp] theorem setScript_doneIE (es : List Event) (s : State) : (setScript es s).doneIE = s.doneIE := rfl
@[simp] theorem setScript_errIE (es : List Event) (s : State) : (setScript es s).errIE = s.errIE := rfl
@[simp] theorem setScript_werrIE (es : List Event) (s : State) : (setScript es s).werrIE = s.werrIE := rfl
@[simp] theorem setScript_errcode (es : List Event) (s : State) : (setScript es s).errcode = s.errcode := rfl
@[simp] theorem setScript_errinfo (es : List Event) (s : State) : (setScript es s).errinfo = s.errinfo := rfl
@[simp] theorem setScript_klen (es : List Event) (s : State) : (setScript es s).klen = s.klen := rfl
@[simp] theorem setScript_key (es : List Event) (s : State) : (setScript es s).key = s.key := rfl
@[simp] theorem setScript_dir (es : List Event) (s : State) : (setScript es s).dir = s.dir := rfl
@[simp] theorem setScript_devaddr (es : List Event) (s : State) : (setScript es s).devaddr = s.devaddr := rfl
@[simp] theorem setScript_fcnt (es : List Event) (s : State) : (setScript es s).fcnt = s.fcnt := rfl
@[simp] theorem setScript_dlen (es : List Event) (s : State) : (setScript es s).dlen = s.dlen := rfl
@[simp] theorem setScript_tag (es : List Event) (s : State) : (setScript es s).tag = s.tag := rfl
@[simp] theorem setScript_rlen (es : List Event) (s : State) : (setScript es s).rlen = s.rlen := rfl
@[simp] theorem setScript_le (es : List Event) (s : State) : (setScript es s).le = s.le := rfl
@[simp] theorem setScript_strict (es : List Event) (s : State) : (setScript es s).strict = s.strict := rfl
@[simp] theorem setScript_fdata (es : List Event) (s : State) : (setScript es s).fdata = s.fdata := rfl
@[simp] theorem setScript_desc (es : List Event) (s : State) : (setScript es s).desc = s.desc := rfl
@[simp] theorem setScript_etab (es : List Event) (s : State) : (setScript es s).etab = s.etab := rfl
@[simp] theorem setScript_fv (es : List Event) (s : State) : (setScript es s).fv = s.fv := rfl
@[simp] theorem setScript_mem (es : List Event) (s : State) : (setScript es s).mem = s.mem := rfl
@[simp] theorem setScript_script (es : List Event) (s : State) : (setScript es s).script = es := rfl
@[simp] theorem setScript_portAnswer (es : List Event) (s : State) :
    (setScript es s).portAnswer = s.portAnswer := rfl

/-! ## setAnswer -/

@[simp] theorem setAnswer_cmdr (a : Answer) (s : State) : (setAnswer a s).cmdr = s.cmdr := rfl
@[simp] theorem setAnswer_busy (a : Answer) (s : State) : (setAnswer a s).busy = s.busy := rfl
@[simp] theorem setAnswer_done (a : Answer) (s : State) : (setAnswer a s).done = s.done := rfl
@[simp] theorem setAnswer_err (a : Answer) (s : State) : (setAnswer a s).err = s.err := rfl
@[simp] theorem setAnswer_werr (a : Answer) (s : State) : (setAnswer a s).werr = s.werr := rfl
@[simp] theorem setAnswer_t (a : Answer) (s : State) : (setAnswer a s).t = s.t := rfl
@[simp] theorem setAnswer_doneIE (a : Answer) (s : State) : (setAnswer a s).doneIE = s.doneIE := rfl
@[simp] theorem setAnswer_errIE (a : Answer) (s : State) : (setAnswer a s).errIE = s.errIE := rfl
@[simp] theorem setAnswer_werrIE (a : Answer) (s : State) : (setAnswer a s).werrIE = s.werrIE := rfl
@[simp] theorem setAnswer_errcode (a : Answer) (s : State) : (setAnswer a s).errcode = s.errcode := rfl
@[simp] theorem setAnswer_errinfo (a : Answer) (s : State) : (setAnswer a s).errinfo = s.errinfo := rfl
@[simp] theorem setAnswer_klen (a : Answer) (s : State) : (setAnswer a s).klen = s.klen := rfl
@[simp] theorem setAnswer_key (a : Answer) (s : State) : (setAnswer a s).key = s.key := rfl
@[simp] theorem setAnswer_dir (a : Answer) (s : State) : (setAnswer a s).dir = s.dir := rfl
@[simp] theorem setAnswer_devaddr (a : Answer) (s : State) : (setAnswer a s).devaddr = s.devaddr := rfl
@[simp] theorem setAnswer_fcnt (a : Answer) (s : State) : (setAnswer a s).fcnt = s.fcnt := rfl
@[simp] theorem setAnswer_dlen (a : Answer) (s : State) : (setAnswer a s).dlen = s.dlen := rfl
@[simp] theorem setAnswer_tag (a : Answer) (s : State) : (setAnswer a s).tag = s.tag := rfl
@[simp] theorem setAnswer_rlen (a : Answer) (s : State) : (setAnswer a s).rlen = s.rlen := rfl
@[simp] theorem setAnswer_le (a : Answer) (s : State) : (setAnswer a s).le = s.le := rfl
@[simp] theorem setAnswer_strict (a : Answer) (s : State) : (setAnswer a s).strict = s.strict := rfl
@[simp] theorem setAnswer_fdata (a : Answer) (s : State) : (setAnswer a s).fdata = s.fdata := rfl
@[simp] theorem setAnswer_desc (a : Answer) (s : State) : (setAnswer a s).desc = s.desc := rfl
@[simp] theorem setAnswer_etab (a : Answer) (s : State) : (setAnswer a s).etab = s.etab := rfl
@[simp] theorem setAnswer_fv (a : Answer) (s : State) : (setAnswer a s).fv = s.fv := rfl
@[simp] theorem setAnswer_mem (a : Answer) (s : State) : (setAnswer a s).mem = s.mem := rfl
@[simp] theorem setAnswer_script (a : Answer) (s : State) : (setAnswer a s).script = s.script := rfl
@[simp] theorem setAnswer_portAnswer (a : Answer) (s : State) : (setAnswer a s).portAnswer = a := rfl

/-! ## raiseError -/

@[simp] theorem raiseError_cmdr (e : CmdError) (s : State) : (raiseError e s).cmdr = s.cmdr := rfl
@[simp] theorem raiseError_busy (e : CmdError) (s : State) : (raiseError e s).busy = false := rfl
@[simp] theorem raiseError_done (e : CmdError) (s : State) : (raiseError e s).done = s.done := rfl
@[simp] theorem raiseError_err (e : CmdError) (s : State) : (raiseError e s).err = true := rfl
@[simp] theorem raiseError_werr (e : CmdError) (s : State) : (raiseError e s).werr = s.werr := rfl
@[simp] theorem raiseError_t (e : CmdError) (s : State) : (raiseError e s).t = s.t := rfl
@[simp] theorem raiseError_doneIE (e : CmdError) (s : State) : (raiseError e s).doneIE = s.doneIE := rfl
@[simp] theorem raiseError_errIE (e : CmdError) (s : State) : (raiseError e s).errIE = s.errIE := rfl
@[simp] theorem raiseError_werrIE (e : CmdError) (s : State) : (raiseError e s).werrIE = s.werrIE := rfl
@[simp] theorem raiseError_errcode (e : CmdError) (s : State) :
    (raiseError e s).errcode = e.code.number := rfl
@[simp] theorem raiseError_errinfo (e : CmdError) (s : State) : (raiseError e s).errinfo = errinfoOf e := rfl
@[simp] theorem raiseError_klen (e : CmdError) (s : State) : (raiseError e s).klen = s.klen := rfl
@[simp] theorem raiseError_key (e : CmdError) (s : State) : (raiseError e s).key = s.key := rfl
@[simp] theorem raiseError_dir (e : CmdError) (s : State) : (raiseError e s).dir = s.dir := rfl
@[simp] theorem raiseError_devaddr (e : CmdError) (s : State) : (raiseError e s).devaddr = s.devaddr := rfl
@[simp] theorem raiseError_fcnt (e : CmdError) (s : State) : (raiseError e s).fcnt = s.fcnt := rfl
@[simp] theorem raiseError_dlen (e : CmdError) (s : State) : (raiseError e s).dlen = s.dlen := rfl
@[simp] theorem raiseError_tag (e : CmdError) (s : State) : (raiseError e s).tag = s.tag := rfl
@[simp] theorem raiseError_rlen (e : CmdError) (s : State) : (raiseError e s).rlen = s.rlen := rfl
@[simp] theorem raiseError_le (e : CmdError) (s : State) : (raiseError e s).le = s.le := rfl
@[simp] theorem raiseError_strict (e : CmdError) (s : State) : (raiseError e s).strict = s.strict := rfl
@[simp] theorem raiseError_fdata (e : CmdError) (s : State) : (raiseError e s).fdata = s.fdata := rfl
@[simp] theorem raiseError_desc (e : CmdError) (s : State) : (raiseError e s).desc = s.desc := rfl
@[simp] theorem raiseError_etab (e : CmdError) (s : State) : (raiseError e s).etab = s.etab := rfl
@[simp] theorem raiseError_fv (e : CmdError) (s : State) : (raiseError e s).fv = s.fv := rfl
@[simp] theorem raiseError_mem (e : CmdError) (s : State) : (raiseError e s).mem = s.mem := rfl
@[simp] theorem raiseError_script (e : CmdError) (s : State) : (raiseError e s).script = s.script := rfl
@[simp] theorem raiseError_portAnswer (e : CmdError) (s : State) :
    (raiseError e s).portAnswer = s.portAnswer := rfl

/-! ## clearError -/

@[simp] theorem clearError_cmdr (s : State) : (clearError s).cmdr = s.cmdr := rfl
@[simp] theorem clearError_busy (s : State) : (clearError s).busy = s.busy := rfl
@[simp] theorem clearError_done (s : State) : (clearError s).done = s.done := rfl
@[simp] theorem clearError_err (s : State) : (clearError s).err = false := rfl
@[simp] theorem clearError_werr (s : State) : (clearError s).werr = s.werr := rfl
@[simp] theorem clearError_t (s : State) : (clearError s).t = s.t := rfl
@[simp] theorem clearError_doneIE (s : State) : (clearError s).doneIE = s.doneIE := rfl
@[simp] theorem clearError_errIE (s : State) : (clearError s).errIE = s.errIE := rfl
@[simp] theorem clearError_werrIE (s : State) : (clearError s).werrIE = s.werrIE := rfl
@[simp] theorem clearError_errcode (s : State) : (clearError s).errcode = 0 := rfl
@[simp] theorem clearError_errinfo (s : State) : (clearError s).errinfo = 0 := rfl
@[simp] theorem clearError_klen (s : State) : (clearError s).klen = s.klen := rfl
@[simp] theorem clearError_key (s : State) : (clearError s).key = s.key := rfl
@[simp] theorem clearError_dir (s : State) : (clearError s).dir = s.dir := rfl
@[simp] theorem clearError_devaddr (s : State) : (clearError s).devaddr = s.devaddr := rfl
@[simp] theorem clearError_fcnt (s : State) : (clearError s).fcnt = s.fcnt := rfl
@[simp] theorem clearError_dlen (s : State) : (clearError s).dlen = s.dlen := rfl
@[simp] theorem clearError_tag (s : State) : (clearError s).tag = s.tag := rfl
@[simp] theorem clearError_rlen (s : State) : (clearError s).rlen = s.rlen := rfl
@[simp] theorem clearError_le (s : State) : (clearError s).le = s.le := rfl
@[simp] theorem clearError_strict (s : State) : (clearError s).strict = s.strict := rfl
@[simp] theorem clearError_fdata (s : State) : (clearError s).fdata = s.fdata := rfl
@[simp] theorem clearError_desc (s : State) : (clearError s).desc = s.desc := rfl
@[simp] theorem clearError_etab (s : State) : (clearError s).etab = s.etab := rfl
@[simp] theorem clearError_fv (s : State) : (clearError s).fv = s.fv := rfl
@[simp] theorem clearError_mem (s : State) : (clearError s).mem = s.mem := rfl
@[simp] theorem clearError_script (s : State) : (clearError s).script = s.script := rfl
@[simp] theorem clearError_portAnswer (s : State) : (clearError s).portAnswer = s.portAnswer := rfl

/-! ## acceptCommand -/

@[simp] theorem acceptCommand_cmdr (w : Word) (s : State) : (acceptCommand w s).cmdr = w := rfl
@[simp] theorem acceptCommand_busy (w : Word) (s : State) : (acceptCommand w s).busy = true := rfl
@[simp] theorem acceptCommand_done (w : Word) (s : State) : (acceptCommand w s).done = false := rfl
@[simp] theorem acceptCommand_err (w : Word) (s : State) : (acceptCommand w s).err = s.err := rfl
@[simp] theorem acceptCommand_werr (w : Word) (s : State) : (acceptCommand w s).werr = s.werr := rfl
@[simp] theorem acceptCommand_t (w : Word) (s : State) : (acceptCommand w s).t = s.t := rfl
@[simp] theorem acceptCommand_doneIE (w : Word) (s : State) : (acceptCommand w s).doneIE = s.doneIE := rfl
@[simp] theorem acceptCommand_errIE (w : Word) (s : State) : (acceptCommand w s).errIE = s.errIE := rfl
@[simp] theorem acceptCommand_werrIE (w : Word) (s : State) : (acceptCommand w s).werrIE = s.werrIE := rfl
@[simp] theorem acceptCommand_errcode (w : Word) (s : State) : (acceptCommand w s).errcode = s.errcode := rfl
@[simp] theorem acceptCommand_errinfo (w : Word) (s : State) : (acceptCommand w s).errinfo = s.errinfo := rfl
@[simp] theorem acceptCommand_klen (w : Word) (s : State) : (acceptCommand w s).klen = s.klen := rfl
@[simp] theorem acceptCommand_key (w : Word) (s : State) : (acceptCommand w s).key = s.key := rfl
@[simp] theorem acceptCommand_dir (w : Word) (s : State) : (acceptCommand w s).dir = s.dir := rfl
@[simp] theorem acceptCommand_devaddr (w : Word) (s : State) : (acceptCommand w s).devaddr = s.devaddr := rfl
@[simp] theorem acceptCommand_fcnt (w : Word) (s : State) : (acceptCommand w s).fcnt = s.fcnt := rfl
@[simp] theorem acceptCommand_dlen (w : Word) (s : State) : (acceptCommand w s).dlen = s.dlen := rfl
@[simp] theorem acceptCommand_tag (w : Word) (s : State) : (acceptCommand w s).tag = s.tag := rfl
@[simp] theorem acceptCommand_rlen (w : Word) (s : State) : (acceptCommand w s).rlen = s.rlen := rfl
@[simp] theorem acceptCommand_le (w : Word) (s : State) : (acceptCommand w s).le = s.le := rfl
@[simp] theorem acceptCommand_strict (w : Word) (s : State) : (acceptCommand w s).strict = s.strict := rfl
@[simp] theorem acceptCommand_fdata (w : Word) (s : State) : (acceptCommand w s).fdata = s.fdata := rfl
@[simp] theorem acceptCommand_desc (w : Word) (s : State) : (acceptCommand w s).desc = s.desc := rfl
@[simp] theorem acceptCommand_etab (w : Word) (s : State) : (acceptCommand w s).etab = s.etab := rfl
@[simp] theorem acceptCommand_fv (w : Word) (s : State) : (acceptCommand w s).fv = s.fv := rfl
@[simp] theorem acceptCommand_mem (w : Word) (s : State) : (acceptCommand w s).mem = s.mem := rfl
@[simp] theorem acceptCommand_script (w : Word) (s : State) : (acceptCommand w s).script = s.script := rfl
@[simp] theorem acceptCommand_portAnswer (w : Word) (s : State) :
    (acceptCommand w s).portAnswer = s.portAnswer := rfl

/-! ## finishCommand -/

@[simp] theorem finishCommand_cmdr (s : State) : (finishCommand s).cmdr = s.cmdr := rfl
@[simp] theorem finishCommand_busy (s : State) : (finishCommand s).busy = false := rfl
@[simp] theorem finishCommand_done (s : State) : (finishCommand s).done = true := rfl
@[simp] theorem finishCommand_err (s : State) : (finishCommand s).err = s.err := rfl
@[simp] theorem finishCommand_werr (s : State) : (finishCommand s).werr = s.werr := rfl
@[simp] theorem finishCommand_t (s : State) : (finishCommand s).t = s.t := rfl
@[simp] theorem finishCommand_doneIE (s : State) : (finishCommand s).doneIE = s.doneIE := rfl
@[simp] theorem finishCommand_errIE (s : State) : (finishCommand s).errIE = s.errIE := rfl
@[simp] theorem finishCommand_werrIE (s : State) : (finishCommand s).werrIE = s.werrIE := rfl
@[simp] theorem finishCommand_errcode (s : State) : (finishCommand s).errcode = s.errcode := rfl
@[simp] theorem finishCommand_errinfo (s : State) : (finishCommand s).errinfo = s.errinfo := rfl
@[simp] theorem finishCommand_klen (s : State) : (finishCommand s).klen = s.klen := rfl
@[simp] theorem finishCommand_key (s : State) : (finishCommand s).key = s.key := rfl
@[simp] theorem finishCommand_dir (s : State) : (finishCommand s).dir = s.dir := rfl
@[simp] theorem finishCommand_devaddr (s : State) : (finishCommand s).devaddr = s.devaddr := rfl
@[simp] theorem finishCommand_fcnt (s : State) : (finishCommand s).fcnt = s.fcnt := rfl
@[simp] theorem finishCommand_dlen (s : State) : (finishCommand s).dlen = s.dlen := rfl
@[simp] theorem finishCommand_tag (s : State) : (finishCommand s).tag = s.tag := rfl
@[simp] theorem finishCommand_rlen (s : State) : (finishCommand s).rlen = s.rlen := rfl
@[simp] theorem finishCommand_le (s : State) : (finishCommand s).le = s.le := rfl
@[simp] theorem finishCommand_strict (s : State) : (finishCommand s).strict = s.strict := rfl
@[simp] theorem finishCommand_fdata (s : State) : (finishCommand s).fdata = s.fdata := rfl
@[simp] theorem finishCommand_desc (s : State) : (finishCommand s).desc = s.desc := rfl
@[simp] theorem finishCommand_etab (s : State) : (finishCommand s).etab = s.etab := rfl
@[simp] theorem finishCommand_fv (s : State) : (finishCommand s).fv = s.fv := rfl
@[simp] theorem finishCommand_mem (s : State) : (finishCommand s).mem = s.mem := rfl
@[simp] theorem finishCommand_script (s : State) : (finishCommand s).script = s.script := rfl
@[simp] theorem finishCommand_portAnswer (s : State) : (finishCommand s).portAnswer = s.portAnswer := rfl

/-! ## writeIen -/

@[simp] theorem writeIen_cmdr (v : Word) (s : State) : (writeIen v s).cmdr = s.cmdr := rfl
@[simp] theorem writeIen_busy (v : Word) (s : State) : (writeIen v s).busy = s.busy := rfl
@[simp] theorem writeIen_done (v : Word) (s : State) : (writeIen v s).done = s.done := rfl
@[simp] theorem writeIen_err (v : Word) (s : State) : (writeIen v s).err = s.err := rfl
@[simp] theorem writeIen_werr (v : Word) (s : State) : (writeIen v s).werr = s.werr := rfl
@[simp] theorem writeIen_t (v : Word) (s : State) : (writeIen v s).t = s.t := rfl
@[simp] theorem writeIen_doneIE (v : Word) (s : State) : (writeIen v s).doneIE = v[1] := rfl
@[simp] theorem writeIen_errIE (v : Word) (s : State) : (writeIen v s).errIE = v[2] := rfl
@[simp] theorem writeIen_werrIE (v : Word) (s : State) : (writeIen v s).werrIE = v[3] := rfl
@[simp] theorem writeIen_errcode (v : Word) (s : State) : (writeIen v s).errcode = s.errcode := rfl
@[simp] theorem writeIen_errinfo (v : Word) (s : State) : (writeIen v s).errinfo = s.errinfo := rfl
@[simp] theorem writeIen_klen (v : Word) (s : State) : (writeIen v s).klen = s.klen := rfl
@[simp] theorem writeIen_key (v : Word) (s : State) : (writeIen v s).key = s.key := rfl
@[simp] theorem writeIen_dir (v : Word) (s : State) : (writeIen v s).dir = s.dir := rfl
@[simp] theorem writeIen_devaddr (v : Word) (s : State) : (writeIen v s).devaddr = s.devaddr := rfl
@[simp] theorem writeIen_fcnt (v : Word) (s : State) : (writeIen v s).fcnt = s.fcnt := rfl
@[simp] theorem writeIen_dlen (v : Word) (s : State) : (writeIen v s).dlen = s.dlen := rfl
@[simp] theorem writeIen_tag (v : Word) (s : State) : (writeIen v s).tag = s.tag := rfl
@[simp] theorem writeIen_rlen (v : Word) (s : State) : (writeIen v s).rlen = s.rlen := rfl
@[simp] theorem writeIen_le (v : Word) (s : State) : (writeIen v s).le = s.le := rfl
@[simp] theorem writeIen_strict (v : Word) (s : State) : (writeIen v s).strict = s.strict := rfl
@[simp] theorem writeIen_fdata (v : Word) (s : State) : (writeIen v s).fdata = s.fdata := rfl
@[simp] theorem writeIen_desc (v : Word) (s : State) : (writeIen v s).desc = s.desc := rfl
@[simp] theorem writeIen_etab (v : Word) (s : State) : (writeIen v s).etab = s.etab := rfl
@[simp] theorem writeIen_fv (v : Word) (s : State) : (writeIen v s).fv = s.fv := rfl
@[simp] theorem writeIen_mem (v : Word) (s : State) : (writeIen v s).mem = s.mem := rfl
@[simp] theorem writeIen_script (v : Word) (s : State) : (writeIen v s).script = s.script := rfl
@[simp] theorem writeIen_portAnswer (v : Word) (s : State) : (writeIen v s).portAnswer = s.portAnswer := rfl

/-! ## writeData -/

@[simp] theorem writeData_cmdr (bs : List Byte) (s : State) : (writeData bs s).cmdr = s.cmdr := rfl
@[simp] theorem writeData_busy (bs : List Byte) (s : State) : (writeData bs s).busy = s.busy := rfl
@[simp] theorem writeData_done (bs : List Byte) (s : State) : (writeData bs s).done = s.done := rfl
@[simp] theorem writeData_err (bs : List Byte) (s : State) : (writeData bs s).err = s.err := rfl
@[simp] theorem writeData_werr (bs : List Byte) (s : State) : (writeData bs s).werr = s.werr := rfl
@[simp] theorem writeData_t (bs : List Byte) (s : State) : (writeData bs s).t = s.t := rfl
@[simp] theorem writeData_doneIE (bs : List Byte) (s : State) : (writeData bs s).doneIE = s.doneIE := rfl
@[simp] theorem writeData_errIE (bs : List Byte) (s : State) : (writeData bs s).errIE = s.errIE := rfl
@[simp] theorem writeData_werrIE (bs : List Byte) (s : State) : (writeData bs s).werrIE = s.werrIE := rfl
@[simp] theorem writeData_errcode (bs : List Byte) (s : State) : (writeData bs s).errcode = s.errcode := rfl
@[simp] theorem writeData_errinfo (bs : List Byte) (s : State) : (writeData bs s).errinfo = s.errinfo := rfl
@[simp] theorem writeData_klen (bs : List Byte) (s : State) : (writeData bs s).klen = s.klen := rfl
@[simp] theorem writeData_key (bs : List Byte) (s : State) : (writeData bs s).key = s.key := rfl
@[simp] theorem writeData_dir (bs : List Byte) (s : State) : (writeData bs s).dir = s.dir := rfl
@[simp] theorem writeData_devaddr (bs : List Byte) (s : State) : (writeData bs s).devaddr = s.devaddr := rfl
@[simp] theorem writeData_fcnt (bs : List Byte) (s : State) : (writeData bs s).fcnt = s.fcnt := rfl
@[simp] theorem writeData_dlen (bs : List Byte) (s : State) : (writeData bs s).dlen = s.dlen := rfl
@[simp] theorem writeData_tag (bs : List Byte) (s : State) : (writeData bs s).tag = s.tag := rfl
@[simp] theorem writeData_rlen (bs : List Byte) (s : State) : (writeData bs s).rlen = s.rlen := rfl
@[simp] theorem writeData_le (bs : List Byte) (s : State) : (writeData bs s).le = s.le := rfl
@[simp] theorem writeData_strict (bs : List Byte) (s : State) : (writeData bs s).strict = s.strict := rfl
@[simp] theorem writeData_fdata (bs : List Byte) (s : State) : (writeData bs s).fdata = s.fdata := rfl
@[simp] theorem writeData_desc (bs : List Byte) (s : State) : (writeData bs s).desc = s.desc := rfl
@[simp] theorem writeData_etab (bs : List Byte) (s : State) : (writeData bs s).etab = s.etab := rfl
@[simp] theorem writeData_fv (bs : List Byte) (s : State) : (writeData bs s).fv = s.fv := rfl
@[simp] theorem writeData_mem (bs : List Byte) (s : State) :
    (writeData bs s).mem = writeBytes s.mem Config.dbufBase bs := rfl
@[simp] theorem writeData_script (bs : List Byte) (s : State) : (writeData bs s).script = s.script := rfl
@[simp] theorem writeData_portAnswer (bs : List Byte) (s : State) :
    (writeData bs s).portAnswer = s.portAnswer := rfl

/-! ## resetBlock -/

@[simp] theorem resetBlock_cmdr (s : State) : (resetBlock s).cmdr = State.reset.cmdr := rfl
@[simp] theorem resetBlock_busy (s : State) : (resetBlock s).busy = State.reset.busy := rfl
@[simp] theorem resetBlock_done (s : State) : (resetBlock s).done = State.reset.done := rfl
@[simp] theorem resetBlock_err (s : State) : (resetBlock s).err = State.reset.err := rfl
@[simp] theorem resetBlock_werr (s : State) : (resetBlock s).werr = State.reset.werr := rfl
@[simp] theorem resetBlock_t (s : State) : (resetBlock s).t = State.reset.t := rfl
@[simp] theorem resetBlock_doneIE (s : State) : (resetBlock s).doneIE = State.reset.doneIE := rfl
@[simp] theorem resetBlock_errIE (s : State) : (resetBlock s).errIE = State.reset.errIE := rfl
@[simp] theorem resetBlock_werrIE (s : State) : (resetBlock s).werrIE = State.reset.werrIE := rfl
@[simp] theorem resetBlock_errcode (s : State) : (resetBlock s).errcode = State.reset.errcode := rfl
@[simp] theorem resetBlock_errinfo (s : State) : (resetBlock s).errinfo = State.reset.errinfo := rfl
@[simp] theorem resetBlock_klen (s : State) : (resetBlock s).klen = State.reset.klen := rfl
@[simp] theorem resetBlock_key (s : State) : (resetBlock s).key = State.reset.key := rfl
@[simp] theorem resetBlock_dir (s : State) : (resetBlock s).dir = State.reset.dir := rfl
@[simp] theorem resetBlock_devaddr (s : State) : (resetBlock s).devaddr = State.reset.devaddr := rfl
@[simp] theorem resetBlock_fcnt (s : State) : (resetBlock s).fcnt = State.reset.fcnt := rfl
@[simp] theorem resetBlock_dlen (s : State) : (resetBlock s).dlen = State.reset.dlen := rfl
@[simp] theorem resetBlock_tag (s : State) : (resetBlock s).tag = State.reset.tag := rfl
@[simp] theorem resetBlock_rlen (s : State) : (resetBlock s).rlen = State.reset.rlen := rfl
@[simp] theorem resetBlock_le (s : State) : (resetBlock s).le = State.reset.le := rfl
@[simp] theorem resetBlock_strict (s : State) : (resetBlock s).strict = State.reset.strict := rfl
@[simp] theorem resetBlock_fdata (s : State) : (resetBlock s).fdata = State.reset.fdata := rfl
@[simp] theorem resetBlock_desc (s : State) : (resetBlock s).desc = State.reset.desc := rfl
@[simp] theorem resetBlock_etab (s : State) : (resetBlock s).etab = State.reset.etab := rfl
@[simp] theorem resetBlock_fv (s : State) : (resetBlock s).fv = State.reset.fv := rfl
@[simp] theorem resetBlock_mem (s : State) : (resetBlock s).mem = State.reset.mem := rfl
@[simp] theorem resetBlock_script (s : State) : (resetBlock s).script = s.script := rfl
@[simp] theorem resetBlock_portAnswer (s : State) : (resetBlock s).portAnswer = s.portAnswer := rfl

/-! ## writeStatus -/

@[simp] theorem writeStatus_cmdr (v : Word) (s : State) :
    (writeStatus v s).cmdr = s.cmdr := by
  cases h : v[2] <;> simp [writeStatus, h]
@[simp] theorem writeStatus_busy (v : Word) (s : State) :
    (writeStatus v s).busy = s.busy := by
  cases h : v[2] <;> simp [writeStatus, h]
@[simp] theorem writeStatus_done (v : Word) (s : State) :
    (writeStatus v s).done = (s.done && !v[1]) := by
  cases h : v[2] <;> simp [writeStatus, h]
@[simp] theorem writeStatus_err (v : Word) (s : State) :
    (writeStatus v s).err = (s.err && !v[2]) := by
  cases h : v[2] <;> simp [writeStatus, h]
@[simp] theorem writeStatus_werr (v : Word) (s : State) :
    (writeStatus v s).werr = (s.werr && !v[3]) := by
  cases h : v[2] <;> simp [writeStatus, h]
@[simp] theorem writeStatus_t (v : Word) (s : State) :
    (writeStatus v s).t = s.t := by
  cases h : v[2] <;> simp [writeStatus, h]
@[simp] theorem writeStatus_doneIE (v : Word) (s : State) :
    (writeStatus v s).doneIE = s.doneIE := by
  cases h : v[2] <;> simp [writeStatus, h]
@[simp] theorem writeStatus_errIE (v : Word) (s : State) :
    (writeStatus v s).errIE = s.errIE := by
  cases h : v[2] <;> simp [writeStatus, h]
@[simp] theorem writeStatus_werrIE (v : Word) (s : State) :
    (writeStatus v s).werrIE = s.werrIE := by
  cases h : v[2] <;> simp [writeStatus, h]
@[simp] theorem writeStatus_errcode (v : Word) (s : State) :
    (writeStatus v s).errcode = if v[2] then 0 else s.errcode := by
  cases h : v[2] <;> simp [writeStatus, h]
@[simp] theorem writeStatus_errinfo (v : Word) (s : State) :
    (writeStatus v s).errinfo = if v[2] then 0 else s.errinfo := by
  cases h : v[2] <;> simp [writeStatus, h]
@[simp] theorem writeStatus_klen (v : Word) (s : State) :
    (writeStatus v s).klen = s.klen := by
  cases h : v[2] <;> simp [writeStatus, h]
@[simp] theorem writeStatus_key (v : Word) (s : State) :
    (writeStatus v s).key = s.key := by
  cases h : v[2] <;> simp [writeStatus, h]
@[simp] theorem writeStatus_dir (v : Word) (s : State) :
    (writeStatus v s).dir = s.dir := by
  cases h : v[2] <;> simp [writeStatus, h]
@[simp] theorem writeStatus_devaddr (v : Word) (s : State) :
    (writeStatus v s).devaddr = s.devaddr := by
  cases h : v[2] <;> simp [writeStatus, h]
@[simp] theorem writeStatus_fcnt (v : Word) (s : State) :
    (writeStatus v s).fcnt = s.fcnt := by
  cases h : v[2] <;> simp [writeStatus, h]
@[simp] theorem writeStatus_dlen (v : Word) (s : State) :
    (writeStatus v s).dlen = s.dlen := by
  cases h : v[2] <;> simp [writeStatus, h]
@[simp] theorem writeStatus_tag (v : Word) (s : State) :
    (writeStatus v s).tag = s.tag := by
  cases h : v[2] <;> simp [writeStatus, h]
@[simp] theorem writeStatus_rlen (v : Word) (s : State) :
    (writeStatus v s).rlen = s.rlen := by
  cases h : v[2] <;> simp [writeStatus, h]
@[simp] theorem writeStatus_le (v : Word) (s : State) :
    (writeStatus v s).le = s.le := by
  cases h : v[2] <;> simp [writeStatus, h]
@[simp] theorem writeStatus_strict (v : Word) (s : State) :
    (writeStatus v s).strict = s.strict := by
  cases h : v[2] <;> simp [writeStatus, h]
@[simp] theorem writeStatus_fdata (v : Word) (s : State) :
    (writeStatus v s).fdata = s.fdata := by
  cases h : v[2] <;> simp [writeStatus, h]
@[simp] theorem writeStatus_desc (v : Word) (s : State) :
    (writeStatus v s).desc = s.desc := by
  cases h : v[2] <;> simp [writeStatus, h]
@[simp] theorem writeStatus_etab (v : Word) (s : State) :
    (writeStatus v s).etab = s.etab := by
  cases h : v[2] <;> simp [writeStatus, h]
@[simp] theorem writeStatus_fv (v : Word) (s : State) :
    (writeStatus v s).fv = s.fv := by
  cases h : v[2] <;> simp [writeStatus, h]
@[simp] theorem writeStatus_mem (v : Word) (s : State) :
    (writeStatus v s).mem = s.mem := by
  cases h : v[2] <;> simp [writeStatus, h]
@[simp] theorem writeStatus_script (v : Word) (s : State) :
    (writeStatus v s).script = s.script := by
  cases h : v[2] <;> simp [writeStatus, h]
@[simp] theorem writeStatus_portAnswer (v : Word) (s : State) :
    (writeStatus v s).portAnswer = s.portAnswer := by
  cases h : v[2] <;> simp [writeStatus, h]

end Sys2Proof.Machine
end

