-- ==== Sys2Proof/Laws/Ops.lean ====
section
/-! SUPPORT. What each shared operation can do, once: checks, the end of a command, the port's map, the step. -/

namespace Sys2Proof.Machine

/-! ## Checks -/

@[simp] theorem require_true (e : CmdError) : require true e = .ok () := rfl

@[simp] theorem require_false (e : CmdError) : require false e = .error e := rfl

theorem require_eq_ok (c : Bool) (e : CmdError) : require c e = .ok () ↔ c = true := by
  cases c <;> simp

theorem require_eq_error (c : Bool) (e e' : CmdError) : require c e = .error e' ↔ c = false ∧ e = e' := by
  cases c <;> simp

@[simp] theorem bind_ok {α β : Type} (a : α) (g : α → Except CmdError β) :
    ((Except.ok a : Except CmdError α) >>= g) = g a := rfl

@[simp] theorem bind_error {α β : Type} (e : CmdError) (g : α → Except CmdError β) :
    ((Except.error e : Except CmdError α) >>= g) = .error e := rfl

theorem bind_eq_ok {α β : Type} (x : Except CmdError α) (g : α → Except CmdError β) (b : β) :
    (x >>= g) = .ok b ↔ ∃ a, x = .ok a ∧ g a = .ok b := by
  cases x <;> simp

theorem bind_eq_error {α β : Type} (x : Except CmdError α) (g : α → Except CmdError β) (e : CmdError) :
    (x >>= g) = .error e ↔ x = .error e ∨ ∃ a, x = .ok a ∧ g a = .error e := by
  cases x <;> simp

/-- A scan passes when every check of it passes. -/
theorem checkEach_eq_ok (check : Fin 16 → Except CmdError Unit) (fs : List (Fin 16)) :
    checkEach check fs = .ok () ↔ ∀ f ∈ fs, check f = .ok () := by
  induction fs with
  | nil => simp [checkEach]
  | cons f fs ih =>
    unfold checkEach
    cases h : check f with
    | error e => simp [h]
    | ok u => simp [h, ih]

/-- A scan fails with the first failing check. -/
theorem checkEach_eq_error (check : Fin 16 → Except CmdError Unit) (fs : List (Fin 16)) (e : CmdError) :
    checkEach check fs = .error e ↔
      ∃ pre f post, fs = pre ++ f :: post ∧ (∀ g ∈ pre, check g = .ok ()) ∧ check f = .error e := by
  induction fs with
  | nil => simp [checkEach]
  | cons f fs ih =>
    unfold checkEach
    cases h : check f with
    | error e' =>
      constructor
      · rintro ⟨⟩
        exact ⟨[], f, fs, rfl, by simp, h⟩
      · rintro ⟨pre, g, post, hfs, hpre, hg⟩
        cases pre with
        | nil =>
          obtain ⟨rfl, -⟩ : f = g ∧ fs = post := by simpa using hfs
          simpa [h] using hg
        | cons p pre =>
          obtain ⟨rfl, -⟩ : f = p ∧ fs = pre ++ g :: post := by simpa using hfs
          simp [h] at hpre
    | ok u =>
      constructor
      · intro hr
        obtain ⟨pre, g, post, rfl, hpre, hg⟩ := ih.1 hr
        exact ⟨f :: pre, g, post, rfl, by simpa [h] using hpre, hg⟩
      · rintro ⟨pre, g, post, hfs, hpre, hg⟩
        cases pre with
        | nil =>
          obtain ⟨rfl, -⟩ : f = g ∧ fs = post := by simpa using hfs
          simp [h] at hg
        | cons p pre =>
          obtain ⟨rfl, rfl⟩ : f = p ∧ fs = pre ++ g :: post := by simpa using hfs
          exact ih.2 ⟨pre, g, post, rfl, fun x hx => hpre x (by simp [hx]), hg⟩

theorem fieldOperand_of_lt (f : Byte) (h : f.toNat < 16) : fieldOperand f = .ok ⟨f.toNat, h⟩ := by
  simp [fieldOperand, h]

theorem fieldOperand_of_le (f : Byte) (h : 16 ≤ f.toNat) : fieldOperand f = .error ⟨.illcmd, 3, f⟩ := by
  simp [fieldOperand, Nat.not_lt.2 h]

/-! ## The end of a command -/

@[simp] theorem complete_ok (s s' : State) : complete s (.ok s') = .next (finishCommand s') := rfl

@[simp] theorem complete_error (s : State) (e : CmdError) : complete s (.error e) = .next (raiseError e s) := rfl

/-- A completion step gives the error record alone, or the command's updates with DONE. -/
theorem complete_cases (s t : State) (r : Except CmdError State) (h : complete s r = .next t) :
    (∃ e, r = .error e ∧ t = raiseError e s) ∨ (∃ s', r = .ok s' ∧ t = finishCommand s') := by
  cases r with
  | error e => exact .inl ⟨e, rfl, by simpa using h.symm⟩
  | ok s' => exact .inr ⟨s', rfl, by simpa using h.symm⟩

theorem complete_next (s : State) (r : Except CmdError State) : ∃ t, complete s r = .next t := by
  cases r <;> simp

/-! ## Checks of the keyed commands -/

theorem checkKey_eq_ok (s : State) : checkKey s = .ok () ↔ s.klen.toNat = 16 := by
  simp [checkKey, require_eq_ok]

theorem checkDataLength_eq_ok (s : State) : checkDataLength s = .ok () ↔ s.dlen.toNat ≤ 256 := by
  simp [checkDataLength, require_eq_ok]

theorem checkWholeBlocks_eq_ok (s : State) : checkWholeBlocks s = .ok () ↔ s.dlen.toNat % 16 = 0 := by
  simp [checkWholeBlocks, require_eq_ok]

theorem checkMicLength_eq_ok (s : State) : checkMicLength s = .ok () ↔ s.dlen.toNat ≤ 255 := by
  simp [checkMicLength, require_eq_ok]

/-- What an ECB command computes: the first failing check, or DBUF replaced block by block. -/
theorem ecbResult_of_checks (g : Block → Block → Block) (s : State) (hk : s.klen.toNat = 16)
    (hl : s.dlen.toNat ≤ 256) (hb : s.dlen.toNat % 16 = 0) :
    ecbResult g s = .ok (writeData (mapBlocks (g s.key) (dataBytes s)) s) := by
  simp [ecbResult, (checkKey_eq_ok s).2 hk, (checkDataLength_eq_ok s).2 hl, (checkWholeBlocks_eq_ok s).2 hb,
    pure, Except.pure]

/-! ## Lengths of what the data commands write -/

theorem flatMap_blocks_length (g : Nat → Block) (n : Nat) :
    ((List.range n).flatMap fun j => (g j).toList).length = 16 * n := by
  induction n with
  | zero => rfl
  | succ n ih =>
    rw [List.range_succ, List.flatMap_append, List.length_append, ih]
    simp
    omega

/-- Byte k of blocks laid end to end. -/
theorem flatMap_blocks_getElem (g : Nat → Block) (n k : Nat)
    (h : k < ((List.range n).flatMap fun j => (g j).toList).length) :
    ((List.range n).flatMap fun j => (g j).toList)[k] = (g (k / 16))[k % 16]'(Nat.mod_lt _ (by decide)) := by
  induction n with
  | zero => simp at h
  | succ n ih =>
    have hl := flatMap_blocks_length g n
    have hl' := flatMap_blocks_length g (n + 1)
    simp only [List.range_succ, List.flatMap_append]
    by_cases hk : k < 16 * n
    · rw [List.getElem_append_left (by omega)]
      exact ih (by omega)
    · have h1 : k / 16 = n := by omega
      have h2 : k % 16 = k - 16 * n := by omega
      rw [List.getElem_append_right (by omega)]
      simp [hl, h1, h2]

/-! ## Bytes of blocks -/

@[simp] theorem blockOf_getElem (bs : List Byte) (n : Nat) (h : n < 16) : (blockOf bs)[n] = bs.getD n 0 := by
  simp [blockOf]

@[simp] theorem xorBlock_getElem (s t : Block) (n : Nat) (h : n < 16) : (xorBlock s t)[n] = s[n] ^^^ t[n] := by
  simp [xorBlock]

@[simp] theorem zeroBlock_getElem (n : Nat) (h : n < 16) : zeroBlock[n] = 0 := by simp [zeroBlock]

/-- Byte n of block j of a byte string, 0 beyond its end. -/
@[simp] theorem dataBlock_getElem (bs : List Byte) (j n : Nat) (h : n < 16) :
    (dataBlock bs j)[n] = bs.getD (16 * j + n) 0 := by
  simp [dataBlock, slice, List.getD_eq_getElem?_getD, h]

theorem blockCount_le (len : Nat) : len ≤ 16 * blockCount len := by
  unfold blockCount
  omega

theorem mapBlocks_length (g : Block → Block) (bs : List Byte) (h : bs.length % 16 = 0) :
    (mapBlocks g bs).length = bs.length := by
  rw [mapBlocks, flatMap_blocks_length]
  omega

theorem keystream_length (s : State) (n : Nat) : (keystream s n).length = 16 * n :=
  flatMap_blocks_length _ n

/-! ## The descriptor table's width -/

theorem recordBits_le (desc : Vector Desc 16) : recordBits desc ≤ 128 := by
  unfold recordBits
  generalize List.finRange 16 = fs
  suffices h : ∀ n, n ≤ 128 →
      fs.foldl (fun n f => if kindOf desc[f] = .none then n else max n (desc[f].hi.toNat + 1)) n ≤ 128 from
    h 0 (by omega)
  induction fs with
  | nil => intro n hn; exact hn
  | cons f fs ih =>
    intro n hn
    rw [List.foldl_cons]
    apply ih
    have : desc[f].hi.toNat < 128 := desc[f].hi.isLt
    split <;> omega

/-- W ranges from 0 to 16 (R132). -/
theorem recordWidth_le (desc : Vector Desc 16) : recordWidth desc ≤ 16 := by
  have := recordBits_le desc
  unfold recordWidth
  omega

/-- Every slot in use lies below the record's bits, and one of them ends there (R132). -/
theorem recordBits_spec (desc : Vector Desc 16) :
    (∀ f : Fin 16, kindOf desc[f] ≠ .none → desc[f].hi.toNat + 1 ≤ recordBits desc) ∧
      (recordBits desc = 0 ∨ ∃ f : Fin 16, kindOf desc[f] ≠ .none ∧ recordBits desc = desc[f].hi.toNat + 1) := by
  have key : ∀ (fs : List (Fin 16)) (n : Nat),
      let r := fs.foldl (fun n f => if kindOf desc[f] = .none then n else max n (desc[f].hi.toNat + 1)) n
      n ≤ r ∧ (∀ f ∈ fs, kindOf desc[f] ≠ .none → desc[f].hi.toNat + 1 ≤ r) ∧
        (r = n ∨ ∃ f : Fin 16, kindOf desc[f] ≠ .none ∧ r = desc[f].hi.toNat + 1) := by
    intro fs
    induction fs with
    | nil => simp
    | cons g fs ih =>
      intro n
      simp only [List.foldl_cons]
      by_cases hg : kindOf desc[g] = .none
      · simp only [hg, if_true]
        obtain ⟨h1, h2, h3⟩ := ih n
        refine ⟨h1, fun f hf hk => ?_, h3⟩
        rcases List.mem_cons.1 hf with rfl | hf
        · exact absurd hg hk
        · exact h2 f hf hk
      · simp only [hg, if_false]
        obtain ⟨h1, h2, h3⟩ := ih (max n (desc[g].hi.toNat + 1))
        refine ⟨by omega, fun f hf hk => ?_, ?_⟩
        · rcases List.mem_cons.1 hf with rfl | hf
          · omega
          · exact h2 f hf hk
        · rcases h3 with h3 | h3
          · rw [h3]
            by_cases hm : desc[g].hi.toNat + 1 ≤ n
            · exact .inl (by omega)
            · exact .inr ⟨g, hg, by omega⟩
          · exact .inr h3
  obtain ⟨-, h2, h3⟩ := key (List.finRange 16) 0
  exact ⟨fun f hk => h2 f (List.mem_finRange f) hk, h3⟩

/-! ## The step -/

theorem step_of_script_nil (s : State) (h : s.script = []) : step s = engineStep s := by
  simp [step, nextStep, h, runEvent]

theorem step_of_script_cons (s : State) (e : Event) (es : List Event) (h : s.script = e :: es) :
    step s = runEvent e (setScript es s) := by
  simp [step, nextStep, h]

theorem engineStep_idle (s : State) (h : s.busy = false) : engineStep s = .next s := by
  simp [engineStep, h]

theorem engineStep_busy (s : State) (h : s.busy = true) : engineStep s = completionStep s := by
  simp [engineStep, h]

theorem completionStep_of_decode (s : State) (i : Instr) (h : decode s.cmdr = .ok i) :
    completionStep s = exec i s := by
  simp [completionStep, pendingCommand, h]

theorem completionStep_of_illegal (s : State) (e : DecodeError) (h : decode s.cmdr = .error e) :
    completionStep s = .next (raiseError (illegalCommand e) s) := by
  simp [completionStep, pendingCommand, h]

end Sys2Proof.Machine
end

