-- ==== Sys2Proof/Laws/Bitfield.lean ====
section
/-! SUPPORT. What the shared operations of the bit-field unit can do, in the terms of Safety.lean: byte strings and
their integers, the widths, the descriptor checks, the table scan, membership. -/

namespace Sys2Proof.Machine

open Sys2Proof.Safety

/-! ## Byte strings and integers (R6) -/

@[simp] theorem bytesBe_length (v n : Nat) : (bytesBe v n).length = n := by
  induction n with
  | zero => rfl
  | succ n ih => simp [bytesBe, ih]

@[simp] theorem bytesLe_length (v n : Nat) : (bytesLe v n).length = n := by simp [bytesLe]

/-- Byte k of `bytes_be(v, n)`. -/
theorem bytesBe_getElem (v n k : Nat) (h : k < (bytesBe v n).length) :
    (bytesBe v n)[k] = BitVec.ofNat 8 (v / 256 ^ (n - 1 - k)) := by
  induction n generalizing k with
  | zero => simp at h
  | succ n ih =>
    cases k with
    | zero => simp [bytesBe]
    | succ k =>
      simp only [bytesBe, List.getElem_cons_succ]
      rw [ih k (by simpa [bytesBe] using h)]
      congr 3
      omega

/-- `int_be(bytes_be(v, n)) = v mod 256^n` (R6). -/
theorem intBe_bytesBe (v n : Nat) : intBe (bytesBe v n) = v % 256 ^ n := by
  induction n with
  | zero => simp [bytesBe, intBe, Nat.mod_one]
  | succ n ih =>
    simp only [bytesBe, intBe, bytesBe_length, ih, BitVec.toNat_ofNat]
    rw [Nat.pow_succ 256 n, Nat.mod_mul, Nat.mul_comm (256 ^ n), Nat.add_comm]

theorem intBe_lt (bs : List Byte) : intBe bs < 256 ^ bs.length := by
  induction bs with
  | nil => simp [intBe]
  | cons b bs ih =>
    have hb : b.toNat < 256 := b.isLt
    have : b.toNat * 256 ^ bs.length + 256 ^ bs.length ≤ 256 * 256 ^ bs.length := by
      rw [← Nat.succ_mul]
      exact Nat.mul_le_mul_right _ hb
    simp only [intBe, List.length_cons, Nat.pow_succ]
    omega

/-- Bit b of `int_be(s)` is bit b mod 8 of the byte b div 8 from the end (R6, R133). -/
theorem intBe_testBit (bs : List Byte) (b : Nat) (h : b / 8 < bs.length) :
    (intBe bs).testBit b = (bs[bs.length - 1 - b / 8]'(by omega)).getLsbD (b % 8) := by
  induction bs with
  | nil => simp at h
  | cons c bs ih =>
    have hlt := intBe_lt bs
    rw [show (256 : Nat) ^ bs.length = 2 ^ (8 * bs.length) by rw [Nat.pow_mul]] at hlt
    simp only [intBe, List.length_cons, Nat.add_sub_cancel]
    rw [show (256 : Nat) ^ bs.length = 2 ^ (8 * bs.length) by rw [Nat.pow_mul], Nat.mul_comm,
      Nat.testBit_two_pow_mul_add _ hlt]
    by_cases hb : b < 8 * bs.length
    · have h1 : b / 8 < bs.length := by omega
      rw [if_pos hb, ih h1]
      have h2 : bs.length - b / 8 = (bs.length - 1 - b / 8) + 1 := by omega
      simp only [h2, List.getElem_cons_succ]
    · have h1 : b / 8 = bs.length := by
        simp only [List.length_cons] at h
        omega
      rw [if_neg hb]
      simp only [h1, Nat.sub_self, List.getElem_cons_zero]
      rw [BitVec.getLsbD]
      congr 1
      omega

theorem toBytes_length (le : Bool) (w raw : Nat) : (toBytes le w raw).length = w := by
  cases le <;> simp [toBytes]

/-- `from_bytes` undoes `to_bytes` on the bits a record of W bytes has (R133). -/
theorem fromBytes_toBytes (le : Bool) (w raw : Nat) : fromBytes le (toBytes le w raw) = raw % 256 ^ w := by
  cases le <;> simp [fromBytes, toBytes, intBe_bytesBe]

/-- `bitlen(v)` is at most w exactly when v is below 2^w (R5). -/
theorem bitlen_le_iff (v w : Nat) : bitlen v ≤ w ↔ v < 2 ^ w := by
  unfold bitlen
  split
  next h => simp [h]
  next h => rw [Nat.succ_le_iff, Nat.log2_lt h]

/-! ## Descriptors (R131) -/

/-- The code that stands for each kind (R43). -/
theorem kindOf_cases (d : Desc) :
    (d.kind = 0 ∧ kindOf d = .none) ∨ (d.kind = 1 ∧ kindOf d = .flag) ∨ (d.kind = 2 ∧ kindOf d = .numeric) ∨
      (d.kind = 3 ∧ kindOf d = .enum) ∨ (d.kind = 4 ∧ kindOf d = .octets) ∨ (d.kind = 5 ∧ kindOf d = .reserved) ∨
      (6 ≤ d.kind.toNat ∧ kindOf d = .invalid) := by
  obtain ⟨lo, hi, kind, scale, ebase, ecnt⟩ := d
  have h : ∀ k : BitVec 3, k = 0 ∨ k = 1 ∨ k = 2 ∨ k = 3 ∨ k = 4 ∨ k = 5 ∨ k = 6 ∨ k = 7 := by decide
  rcases h kind with rfl | rfl | rfl | rfl | rfl | rfl | rfl | rfl <;> simp [kindOf]

theorem widthOf_eq (d : Desc) (h : d.lo.toNat ≤ d.hi.toNat) : widthOf d = fieldWidth d := by
  unfold widthOf fieldWidth
  omega

theorem scaleOf_eq (d : Desc) : scaleOf d = scaleFactor d := by
  simp [scaleOf, scaleFactor, BitVec.toNat_eq]

/-- `check_desc` passes exactly the descriptors that items (1) to (5) of R131 allow. -/
theorem checkDesc_eq_ok (f : Fin 16) (d : Desc) : checkDesc f d = .ok () ↔ descValid d := by
  unfold checkDesc descValid
  rcases kindOf_cases d with ⟨hk, h⟩ | ⟨hk, h⟩ | ⟨hk, h⟩ | ⟨hk, h⟩ | ⟨hk, h⟩ | ⟨hk, h⟩ | ⟨hk, h⟩ <;>
    simp only [h, reduceCtorEq, if_false, if_true, false_and, true_and, BitVec.lt_def]
  · simp [hk]
  · by_cases hl : d.hi.toNat < d.lo.toNat
    · simp only [hl, if_true, hk]
      simp
      omega
    · simp only [hl, if_false, hk]
      simp
      omega
  · by_cases hl : d.hi.toNat < d.lo.toNat
    · simp only [hl, if_true, hk]
      simp
      omega
    · simp only [hl, if_false, hk]
      simp
      omega
  · by_cases hl : d.hi.toNat < d.lo.toNat
    · simp only [hl, if_true, hk]
      simp
      omega
    · simp only [hl, if_false, hk]
      split <;> simp <;> omega
  · by_cases hl : d.hi.toNat < d.lo.toNat
    · simp only [hl, if_true, hk]
      simp
      omega
    · rw [widthOf_eq d (by omega)]
      simp only [hl, if_false, hk]
      split <;> simp <;> omega
  · by_cases hl : d.hi.toNat < d.lo.toNat
    · simp only [hl, if_true, hk]
      simp
      omega
    · simp only [hl, if_false, hk]
      simp
      omega
  · constructor
    · intro hc
      cases hc
    · rintro (h0 | ⟨h5, _⟩)
      · simp [h0] at hk
      · omega

theorem overlaps_eq (d e : Desc) : overlaps d e = true ↔ shareBit d e := by
  have hd : (kindOf d != .none) = true ↔ inUse d := by
    rcases kindOf_cases d with ⟨hk, h⟩ | ⟨hk, h⟩ | ⟨hk, h⟩ | ⟨hk, h⟩ | ⟨hk, h⟩ | ⟨hk, h⟩ | ⟨hk, h⟩ <;>
      simp only [h, inUse]
    case inr.inr.inr.inr.inr.inr => simp; intro h0; simp [h0] at hk
    all_goals simp [hk]
  have he : (kindOf e != .none) = true ↔ inUse e := by
    rcases kindOf_cases e with ⟨hk, h⟩ | ⟨hk, h⟩ | ⟨hk, h⟩ | ⟨hk, h⟩ | ⟨hk, h⟩ | ⟨hk, h⟩ | ⟨hk, h⟩ <;>
      simp only [h, inUse]
    case inr.inr.inr.inr.inr.inr => simp; intro h0; simp [h0] at hk
    all_goals simp [hk]
  simp only [overlaps, Bool.and_eq_true, decide_eq_true_eq, hd, he, BitVec.le_def, shareBit, and_assoc]

theorem checkOverlap_eq_ok (desc : Vector Desc 16) (f : Fin 16) :
    checkOverlap desc f = .ok () ↔ ∀ g : Fin 16, g < f → ¬shareBit desc[f] desc[g] := by
  simp only [checkOverlap, require_eq_ok, Bool.not_eq_true', List.any_eq_false, List.mem_finRange, Bool.and_eq_true,
    decide_eq_true_eq, not_and, overlaps_eq, true_implies]

/-- `check_table` passes exactly the valid tables. -/
theorem checkTable_eq_ok (desc : Vector Desc 16) : checkTable desc = .ok () ↔ tableValid desc := by
  simp only [checkTable, checkEach_eq_ok, List.mem_finRange, true_implies, tableValid, ← forall_and]
  refine forall_congr' fun f => ?_
  rw [← checkDesc_eq_ok f, ← checkOverlap_eq_ok, bind_eq_ok]
  constructor
  · rintro ⟨u, h1, h2⟩
    exact ⟨h1, h2⟩
  · rintro ⟨h1, h2⟩
    exact ⟨(), h1, h2⟩

/-- `member(f, v)` on a slice that lies inside ETAB (R134). -/
theorem isMember_eq (etab : Vector Word 64) (d : Desc) (v : Value) (h : d.ebase.toNat + d.ecnt.toNat ≤ 64) :
    isMember etab d v = true ↔ memberOf etab d v := by
  simp only [isMember, List.any_eq_true, List.mem_range, beq_iff_eq, enumMember, memberOf]
  constructor
  · rintro ⟨k, hk, hm⟩
    have hlt : d.ebase.toNat + k < 64 := by omega
    refine ⟨⟨d.ebase.toNat + k, hlt⟩, by simp, by simpa using hk, ?_⟩
    rw [Vector.getElem?_eq_getElem hlt] at hm
    simpa using hm
  · rintro ⟨n, h1, h2, hm⟩
    refine ⟨n.val - d.ebase.toNat, by omega, ?_⟩
    have he : d.ebase.toNat + (n.val - d.ebase.toNat) = n.val := by omega
    rw [he, Vector.getElem?_eq_getElem n.isLt]
    simpa using hm

end Sys2Proof.Machine
end

