-- ==== Sys2Proof/Laws/Mac.lean ====
section
/-! SUPPORT. What the parts of the CMAC computation can do: a string of 16 bytes as a block, the last block. -/

namespace Sys2Proof.Machine

/-- A string of 16 bytes is the bytes of its block. -/
theorem blockOf_toList (bs : List Byte) (h : bs.length = 16) : (blockOf bs).toList = bs := by
  apply List.ext_getElem
  · simp [h]
  · intro n _ h2
    simp [blockOf, h2]

/-- The last block starts at or before the end of the message and ends at or after it (R212). -/
theorem cmacBlocks_bounds (len : Nat) : 16 * (cmacBlocks len - 1) ≤ len ∧ len ≤ 16 * (cmacBlocks len - 1) + 16 := by
  unfold cmacBlocks blockCount
  split <;> omega

/-- Byte n of a complete last block: the message byte xor that of K1 (R212). -/
theorem cmacLast_getElem_complete (k : Block) (msg : List Byte) (n : Nat) (h : n < 16)
    (hc : msg.length ≠ 0 ∧ msg.length % 16 = 0) :
    (cmacLast k msg)[n] = msg.getD (16 * (cmacBlocks msg.length - 1) + n) 0 ^^^ (cmacK1 k)[n] := by
  have : cmacLast k msg = xorBlock (blockOf (msg.drop (16 * (cmacBlocks msg.length - 1)))) (cmacK1 k) := if_pos hc
  simp only [this, xorBlock_getElem, blockOf_getElem, List.getD_eq_getElem?_getD, List.getElem?_drop]

/-- Byte n of an incomplete last block: the message byte, then 0x80, then zeros, xor that of K2 (R212). -/
theorem cmacLast_getElem_padded (k : Block) (msg : List Byte) (n : Nat) (h : n < 16)
    (hc : ¬(msg.length ≠ 0 ∧ msg.length % 16 = 0)) :
    (cmacLast k msg)[n] =
      (if 16 * (cmacBlocks msg.length - 1) + n < msg.length then
        msg.getD (16 * (cmacBlocks msg.length - 1) + n) 0
      else if 16 * (cmacBlocks msg.length - 1) + n = msg.length then 0x80 else 0) ^^^ (cmacK2 k)[n] := by
  have hb := cmacBlocks_bounds msg.length
  generalize hs : 16 * (cmacBlocks msg.length - 1) = start at hb ⊢
  have : cmacLast k msg =
      xorBlock (blockOf (msg.drop start ++ [0x80] ++ zeroBytes (15 - (msg.drop start).length))) (cmacK2 k) := by
    rw [← hs]
    exact if_neg hc
  simp only [this, xorBlock_getElem, blockOf_getElem]
  congr 1
  simp only [List.getD_eq_getElem?_getD, List.getElem?_append, List.length_append, List.length_drop,
    List.length_singleton, List.getElem?_drop, zeroBytes]
  by_cases h1 : start + n < msg.length
  · rw [if_pos h1, if_pos (by omega), if_pos (by omega)]
  · rw [if_neg h1]
    by_cases h2 : start + n = msg.length
    · have h3 : n - (msg.length - start) = 0 := by omega
      rw [if_pos h2, if_pos (by omega), if_neg (by omega), h3]
      rfl
    · rw [if_neg h2, if_neg (by omega), List.getElem?_replicate]
      split <;> rfl

end Sys2Proof.Machine
end

