-- ==== Sys2Proof/Laws/PerInstr.lean ====
section
/-! SUPPORT. A law of every command as syntax: its word has Z = 0 and an opcode of table T108. -/

namespace Sys2Proof.Laws

/-- The word of a command has Z = 0 and the opcode of a row of table T108 (R100, R108). -/
def WordShape.Statement (i : Instr) : Prop :=
  zField (encode i) = 0 ∧ (opcodeRow (opField (encode i))).isSome = true

theorem opField_commandWordOf (op f k : Byte) : opField (commandWordOf op f k) = op := by
  apply BitVec.eq_of_getLsbD_eq
  intro i hi
  have h1 : i < 32 := by omega
  have h2 : i < 16 := by omega
  simp [opField, commandWordOf, hi, h1, h2]

theorem fField_commandWordOf (op f k : Byte) : fField (commandWordOf op f k) = f := by
  apply BitVec.eq_of_getLsbD_eq
  intro i hi
  have h1 : 8 + i < 32 := by omega
  have h2 : 8 + i < 16 := by omega
  simp [fField, commandWordOf, hi, h1, h2]

theorem kField_commandWordOf (op f k : Byte) : kField (commandWordOf op f k) = k := by
  apply BitVec.eq_of_getLsbD_eq
  intro i hi
  have h1 : 16 + i < 32 := by omega
  have h2 : ¬16 + i < 8 := by omega
  have h3 : op.getLsbD (16 + i) = false := BitVec.getLsbD_of_ge _ _ (by omega)
  have h4 : f.getLsbD (16 + i - 8) = false := BitVec.getLsbD_of_ge _ _ (by omega)
  simp [kField, commandWordOf, hi, h1, h2, h3, h4]

theorem zField_commandWordOf (op f k : Byte) : zField (commandWordOf op f k) = 0 := by
  apply BitVec.eq_of_getLsbD_eq
  intro i hi
  have h1 : 24 + i < 32 := by omega
  have h2 : ¬24 + i < 8 := by omega
  have h3 : op.getLsbD (24 + i) = false := BitVec.getLsbD_of_ge _ _ (by omega)
  have h4 : f.getLsbD (24 + i - 8) = false := BitVec.getLsbD_of_ge _ _ (by omega)
  have h5 : k.getLsbD (24 + i - 16) = false := BitVec.getLsbD_of_ge _ _ (by omega)
  simp [zField, commandWordOf, hi, h1, h2, h3, h4, h5]

/-- A word built with an opcode of the table has the shape. -/
theorem wordShape_of (op f k : Byte) (h : (opcodeRow op).isSome = true) :
    zField (commandWordOf op f k) = 0 ∧ (opcodeRow (opField (commandWordOf op f k))).isSome = true := by
  rw [opField_commandWordOf]
  exact ⟨zField_commandWordOf op f k, h⟩

theorem WordShape.nop : WordShape.Statement .nop := wordShape_of 0x00 0 0 rfl
theorem WordShape.srst : WordShape.Statement .srst := wordShape_of 0x01 0 0 rfl
theorem WordShape.ecbEnc : WordShape.Statement .ecbEnc := wordShape_of 0x10 0 0 rfl
theorem WordShape.ecbDec : WordShape.Statement .ecbDec := wordShape_of 0x11 0 0 rfl
theorem WordShape.ksXor : WordShape.Statement .ksXor := wordShape_of 0x12 0 0 rfl
theorem WordShape.cmac : WordShape.Statement .cmac := wordShape_of 0x13 0 0 rfl
theorem WordShape.micData : WordShape.Statement .micData := wordShape_of 0x14 0 0 rfl
theorem WordShape.bfEncode : WordShape.Statement .bfEncode := wordShape_of 0x20 0 0 rfl
theorem WordShape.bfDecode : WordShape.Statement .bfDecode := wordShape_of 0x21 0 0 rfl
theorem WordShape.bfSet (f : Byte) : WordShape.Statement (.bfSet f) := wordShape_of 0x22 f 0 rfl
theorem WordShape.bfGet (f : Byte) : WordShape.Statement (.bfGet f) := wordShape_of 0x23 f 0 rfl
theorem WordShape.bfTest (f k : Byte) : WordShape.Statement (.bfTest f k) := wordShape_of 0x24 f k rfl
theorem WordShape.bfEchk (f : Byte) : WordShape.Statement (.bfEchk f) := wordShape_of 0x25 f 0 rfl
theorem WordShape.bfClr : WordShape.Statement .bfClr := wordShape_of 0x26 0 0 rfl

end Sys2Proof.Laws
end

