-- ==== Sys2Proof/Laws/Port.lean ====
section
/-! SUPPORT. What the address map gives: every register at its offset, one register at each mapped offset, and nothing
else. -/

namespace Sys2Proof.Machine

/-- Every register is in the map's list. -/
theorem mem_allRegs (r : Reg) : r ∈ allRegs := by
  cases r <;> simp [allRegs, singleRegs]

set_option maxRecDepth 10000 in
/-- Two registers never share an offset (R44, T78). -/
theorem offsetOf_injective (r q : Reg) (h : offsetOf r = offsetOf q) : r = q := by
  cases r <;> cases q <;> simp only [offsetOf, Reg.key.injEq, Reg.tag.injEq, Reg.fdata.injEq, Reg.rbuf.injEq,
    Reg.descA.injEq, Reg.descB.injEq, Reg.etab.injEq, Reg.dbuf.injEq] at * <;> first | rfl | omega

theorem regAt_offsetOf (r : Reg) : regAt (offsetOf r) = some r := by
  have h : (regAt (offsetOf r)).isSome = true := by
    simp only [regAt, List.find?_isSome]
    exact ⟨r, mem_allRegs r, by simp⟩
  obtain ⟨q, hq⟩ := Option.isSome_iff_exists.1 h
  have : offsetOf q = offsetOf r := by simpa using List.find?_some hq
  rw [hq, offsetOf_injective q r this]

theorem regAt_eq_some (off : Nat) (r : Reg) : regAt off = some r ↔ off = offsetOf r := by
  constructor
  · intro h
    exact (by simpa using List.find?_some h : offsetOf r = off).symm
  · rintro rfl
    exact regAt_offsetOf r

theorem offsetOf_aligned (r : Reg) : offsetOf r % 4 = 0 := by
  cases r <;> simp only [offsetOf] <;> omega

theorem offsetOf_lt (r : Reg) : offsetOf r < 4096 := by
  cases r <;> simp only [offsetOf] <;> omega

theorem base_aligned : Config.base % 4 = 0 := by
  rw [Config.base, Nat.mul_mod]
  simp

/-- What an access can reach: exactly a 32-bit access at the base plus the offset of a register (R71, R72). -/
theorem accessedReg_eq_some (addr n : Nat) (r : Reg) :
    accessedReg addr n = some r ↔ n = 4 ∧ addr = Config.base + offsetOf r := by
  have hb := base_aligned
  have ho := offsetOf_aligned r
  unfold accessedReg
  split
  · rw [regAt_eq_some]
    omega
  · simp only [reduceCtorEq, false_iff, not_and]
    intro h4
    omega

@[simp] theorem accessedReg_base (r : Reg) : accessedReg (Config.base + offsetOf r) 4 = some r :=
  (accessedReg_eq_some _ _ _).2 ⟨rfl, rfl⟩

/-- An access of another width or alignment, or at an address outside the window, reaches no register (R71, R73). -/
theorem accessedReg_eq_none (addr n : Nat)
    (h : n ≠ 4 ∨ addr % 4 ≠ 0 ∨ addr < Config.base ∨ Config.base + 4096 ≤ addr) : accessedReg addr n = none := by
  cases hr : accessedReg addr n with
  | none => rfl
  | some r =>
    have hb := base_aligned
    have ha := offsetOf_aligned r
    have hl := offsetOf_lt r
    have := (accessedReg_eq_some addr n r).1 hr
    omega

/-- A read leaves everything but the answer of the port (R71). -/
theorem memRead_cases (addr n : Nat) (s : State) :
    (∃ r, accessedReg addr n = some r ∧ memRead addr n s = setAnswer (.data (readReg s r)) s) ∨
      (accessedReg addr n = none ∧ memRead addr n s = setAnswer .busError s) := by
  unfold memRead
  cases h : accessedReg addr n <;> simp

/-- A write is refused with a bus error, dropped, or has the register's own effect (R72). -/
theorem memWrite_cases (addr n : Nat) (v : Word) (s : State) :
    (accessedReg addr n = none ∧ memWrite addr n v s = setAnswer .busError s) ∨
      ∃ r, accessedReg addr n = some r ∧
        ((isDropped r s = true ∧ memWrite addr n v s = setAnswer .written (setWerr s)) ∨
          (isDropped r s = false ∧ memWrite addr n v s = setAnswer .written (writeReg r v s))) := by
  unfold memWrite
  cases h : accessedReg addr n with
  | none => simp
  | some r => cases hd : isDropped r s <;> simp [hd]

/-! ## The words of the wide registers as numbers -/

/-- A field of a word above the bits of a number is a summand. -/
theorem shiftLeft_or_eq_add (a : Nat) (b i : Nat) (h : b < 2 ^ i) : a <<< i ||| b = b + 2 ^ i * a := by
  rw [← Nat.shiftLeft_add_eq_or_of_lt h, Nat.shiftLeft_eq, Nat.mul_comm, Nat.add_comm]

/-- DESCA: LO in bits 6:0, HI in bits 14:8, KIND in bits 18:16 (R40). -/
theorem descAWord_toNat (d : Desc) :
    (descAWord d).toNat = d.lo.toNat + 2 ^ 8 * d.hi.toNat + 2 ^ 16 * d.kind.toNat := by
  have := d.lo.isLt; have := d.hi.isLt; have := d.kind.isLt
  have h1 : (descAWord d).toNat = d.kind.toNat <<< 16 ||| d.hi.toNat <<< 8 ||| d.lo.toNat := by
    simp (disch := omega) [descAWord, Nat.shiftLeft_eq, Nat.mod_eq_of_lt]
  rw [h1, Nat.or_assoc, shiftLeft_or_eq_add d.hi.toNat _ 8 (by omega), shiftLeft_or_eq_add _ _ 16 (by omega)]

/-- DESCB: SCALE in bits 15:0, EBASE in bits 21:16, ECNT in bits 28:22 (R40). -/
theorem descBWord_toNat (d : Desc) :
    (descBWord d).toNat = d.scale.toNat + 2 ^ 16 * d.ebase.toNat + 2 ^ 22 * d.ecnt.toNat := by
  have := d.scale.isLt; have := d.ebase.isLt; have := d.ecnt.isLt
  have h1 : (descBWord d).toNat = d.ecnt.toNat <<< 22 ||| d.ebase.toNat <<< 16 ||| d.scale.toNat := by
    simp (disch := omega) [descBWord, Nat.shiftLeft_eq, Nat.mod_eq_of_lt]
  rw [h1, Nat.or_assoc, shiftLeft_or_eq_add d.ebase.toNat _ 16 (by omega), shiftLeft_or_eq_add _ _ 22 (by omega)]

/-- Word j of a value: its bits 32j+31 to 32j (R39). -/
theorem valueWord_toNat (x : Value) (j : Fin 4) :
    (valueWord x j).toNat = x.toNat / 2 ^ (32 * j.val) % 2 ^ 32 := by
  simp [valueWord, Nat.shiftRight_eq_div_pow]

end Sys2Proof.Machine
end

