-- ==== Sys2Proof/Tests/Slice0.lean ====
section
/-! SUPPORT. The model's own tests.  Expected values come from the worked examples of the rules and from
spec/95_test_vectors.md (the vector is named beside each test), never from the model. -/

namespace Sys2Proof.Tests

open Sys2Proof.Machine Sys2Proof.Safety

/-! ## Helpers -/

/-- The next state, where there is one. -/
def nextOf : Host.Outcome State Fault Refusal → Option State
  | .next t => some t
  | .fault _ => none
  | .refused _ => none

/-- Whether an outcome is a next state with a property. -/
def nextIs (o : Host.Outcome State Fault Refusal) (p : State → Bool) : Bool := (nextOf o).any p

theorem exists_of_nextIs (o : Host.Outcome State Fault Refusal) (p : State → Bool) (h : nextIs o p = true) :
    ∃ t, o = .next t ∧ p t = true := by
  cases o <;> simp_all [nextIs, nextOf]

/-- Whether a state records an error: ERR = 1 with this code and ERRINFO, and neither DONE nor BUSY. -/
def hasError (code info : Nat) (t : State) : Bool :=
  t.err && !t.done && !t.busy && t.errcode.toNat == code && t.errinfo.toNat == info

/-- Whether a state shows a completion without an error. -/
def hasDone (t : State) : Bool := t.done && !t.err && !t.busy

/-- The reset state with a key loaded. -/
def keyed (k : Nat) : State := { State.reset with key := blockOf (bytesBe k 16), klen := 16 }

/-- A state with a byte string of n bytes in DBUF. -/
def withData (v n : Nat) (s : State) : State :=
  { s with mem := writeBytes s.mem 0x400 (bytesBe v n), dlen := BitVec.ofNat 16 n }

/-- A state with a record of n bytes in RBUF. -/
def withRecord (v n : Nat) (s : State) : State :=
  { s with mem := writeBytes s.mem 0x080 (bytesBe v n), rlen := BitVec.ofNat 8 n }

/-- A state with a descriptor in a slot. -/
def withDesc (f : Fin 16) (d : Desc) (s : State) : State := { s with desc := s.desc.set f.val d f.isLt }

/-- A field of a kind without scale or members. -/
def plain (kind : BitVec 3) (hi lo : BitVec 7) : Desc :=
  { lo := lo, hi := hi, kind := kind, scale := 0, ebase := 0, ecnt := 0 }

/-- The data frame parameters of vectors K2 and M7: KEY 01 sixteen times, DEVADDR 0x80818283, FCNT 258. -/
def frame : State :=
  { keyed 0x01010101010101010101010101010101 with devaddr := 0x80818283, fcnt := 258 }

/-- The record MHDR of vector B1: ENUM 7:5 with members 0 to 6, RESERVED 4:2, NUMERIC 1:0. -/
def mhdr : State :=
  { withDesc 0 { plain 3 7 5 with ecnt := 7 } (withDesc 1 (plain 5 4 2) (withDesc 2 (plain 2 1 0) State.reset)) with
    etab := Vector.ofFn fun n => if n.val < 7 then BitVec.ofNat 32 n.val else 0 }

/-- A state with a command in progress. -/
def busyWith (w : Word) (s : State) : State := { s with cmdr := w, busy := true, done := false }

/-! ## WellFormed: each operand check refuses an ill-formed command -/

theorem test_wellFormed_refuses_bfSet_16 : Instr.wellFormed (.bfSet 16) = false := by decide
theorem test_wellFormed_refuses_bfGet_16 : Instr.wellFormed (.bfGet 16) = false := by decide
theorem test_wellFormed_refuses_bfTest_16 : Instr.wellFormed (.bfTest 16 0) = false := by decide
theorem test_wellFormed_refuses_bfEchk_255 : Instr.wellFormed (.bfEchk 255) = false := by decide
theorem test_wellFormed_accepts_15 :
    Instr.wellFormed (.bfSet 15) = true ∧ Instr.wellFormed (.bfTest 15 255) = true := by decide

/-! ## Decoding: the words written from table T108 and the examples of R109 -/

theorem test_decode_nop : decodeTableWord 32 0x00000000 = some .nop := by decide
theorem test_decode_srst : decodeTableWord 32 0x00000001 = some .srst := by decide
theorem test_decode_ecbEnc : decodeTableWord 32 0x00000010 = some .ecbEnc := by decide
theorem test_decode_ecbDec : decodeTableWord 32 0x00000011 = some .ecbDec := by decide
theorem test_decode_ksXor : decodeTableWord 32 0x00000012 = some .ksXor := by decide
theorem test_decode_cmac : decodeTableWord 32 0x00000013 = some .cmac := by decide
theorem test_decode_micData : decodeTableWord 32 0x00000014 = some .micData := by decide
theorem test_decode_bfEncode : decodeTableWord 32 0x00000020 = some .bfEncode := by decide
theorem test_decode_bfDecode : decodeTableWord 32 0x00000021 = some .bfDecode := by decide
theorem test_decode_bfSet : decodeTableWord 32 0x00000322 = some (.bfSet 3) := by decide
theorem test_decode_bfGet : decodeTableWord 32 0x00000F23 = some (.bfGet 15) := by decide
theorem test_decode_bfTest : decodeTableWord 32 0x00FF0F24 = some (.bfTest 15 255) := by decide
theorem test_decode_bfEchk : decodeTableWord 32 0x00000225 = some (.bfEchk 2) := by decide
theorem test_decode_bfClr : decodeTableWord 32 0x00000026 = some .bfClr := by decide

/-- R109 and vectors E1, E6, E8, E9: words that are no command, and why. -/
theorem test_decode_errors :
    decode 0x00000002 = .error .unknownOpcode ∧ decode 0x01000000 = .error .nonzeroField ∧
    decode 0x00000112 = .error .nonzeroField ∧ decode 0x00010022 = .error .nonzeroField ∧
    decode 0x00001022 = .error (.fieldIndex 16) ∧ decode 0x00101024 = .error (.fieldIndex 16) :=
  ⟨rfl, rfl, rfl, rfl, rfl, rfl⟩

/-- Vectors E10 and E12. -/
theorem test_illegal_words :
    nextIs (step (busyWith 0x0000FF23 State.reset)) (hasError 5 0x03FF) = true ∧
    nextIs (step (busyWith 0x01000024 State.reset)) (hasError 5 0x02FF) = true := by decide

/-! ## System commands -/

/-- Vector S1. -/
theorem test_nop_sets_done : nextIs (exec .nop (busyWith 0 State.reset)) hasDone = true := by decide

/-- Vector S4: DONE is not set and no key is left. -/
theorem test_srst_clears :
    nextIs (exec .srst (busyWith 1 frame)) (fun t => !t.done && !t.busy && t.klen == 0 && t.devaddr == 0) = true := by
  decide

/-! ## Cipher and MAC commands -/

set_option maxRecDepth 100000 in
/-- Vector A20. -/
theorem test_ecbEnc_A20 :
    nextIs (exec .ecbEnc (withData 0x00112233445566778899aabbccddeeff 16 (keyed 0x000102030405060708090a0b0c0d0e0f)))
      (fun t => intBe (readBytes t.mem 0x400 16) == 0x69c4e0d86a7b0430d8cdb78070b4c55a) = true := by decide

/-- Vector A26: a length that is no multiple of 16. -/
theorem test_ecbEnc_A26 : nextIs (exec .ecbEnc (withData 0 17 (keyed 0))) (hasError 7 0x02FF) = true := by decide

set_option maxRecDepth 100000 in
/-- Vector A21. -/
theorem test_ecbDec_A21 :
    nextIs (exec .ecbDec (withData 0x69c4e0d86a7b0430d8cdb78070b4c55a 16 (keyed 0x000102030405060708090a0b0c0d0e0f)))
      (fun t => intBe (readBytes t.mem 0x400 16) == 0x00112233445566778899aabbccddeeff) = true := by decide

/-- Vector A27: LEN sub 1 comes before LEN sub 2. -/
theorem test_ecbDec_A27 :
    nextIs (exec .ecbDec { keyed 0 with dlen := 257 }) (hasError 7 0x01FF) = true := by decide

set_option maxRecDepth 100000 in
/-- Vector K2: eight bytes, the rest of DBUF kept. -/
theorem test_ksXor_K2 :
    nextIs (exec .ksXor (withData 0x0102030405060708 8 frame))
      (fun t => intBe (readBytes t.mem 0x400 16) == 0x08d2b505feea80b20000000000000000) = true := by decide

/-- Vector K10: no key. -/
theorem test_ksXor_K10 : nextIs (exec .ksXor State.reset) (hasError 4 0x01FF) = true := by decide

set_option maxRecDepth 100000 in
/-- Vector M1: the tag of the empty message, and TAG0. -/
theorem test_cmac_M1 :
    nextIs (exec .cmac (keyed 0x2b7e151628aed2a6abf7158809cf4f3c))
      (fun t => intBe t.tag.toList == 0xbb1d6929e95937287fa37d129b756746 && blockWord t.tag 0 == 0x29691DBB) =
      true := by decide

set_option maxRecDepth 100000 in
/-- Vector M3: a chain of three blocks, the last one of 8 bytes and padded. -/
theorem test_cmac_M3 :
    intBe (cmac (blockOf (bytesBe 0x2b7e151628aed2a6abf7158809cf4f3c 16))
      (bytesBe 0x6bc1bee22e409f96e93d7e117393172aae2d8a571e03ac9c9eb76fac45af8e5130c81c46a35ce411 40)).toList =
      0xdfa66747de9ae63030ca32611497c827 := by decide

set_option maxRecDepth 100000 in
/-- Vector M7: B0 and the 17 bytes of a data frame. -/
theorem test_micData_M7 :
    nextIs (exec .micData (withData 0x40838281800002010108d2b505feea80b2 17 frame))
      (fun t => intBe t.tag.toList == 0x7c08d373e8c4d323cff7ef9fa045d6ae) = true := by decide

/-- Vector M14: 256 bytes do not fit byte 15 of B0. -/
theorem test_micData_M14 :
    nextIs (exec .micData { frame with dlen := 256 }) (hasError 7 0x03FF) = true := by decide

/-- Example of R200. -/
theorem test_counterBlock_example : intBe (blockA frame 1).toList = 0x01000000000083828180020100000001 := by decide

/-! ## Bit-field commands -/

/-- Vector B1. -/
theorem test_bfEncode_B1 :
    nextIs (exec .bfEncode { mhdr with fv := mhdr.fv.set 0 2 })
      (fun t => intBe (readBytes t.mem 0x080 16) == 0x40 <<< 120 && t.rlen == 1) = true := by decide

/-- Vector B11g: the higher-numbered of two overlapping fields is reported. -/
theorem test_bfEncode_B11g :
    nextIs (exec .bfEncode (withDesc 0 (plain 2 7 0) (withDesc 1 (plain 1 7 7) State.reset))) (hasError 6 0x0501) =
      true := by decide

/-- Vector B2, the example of R136: a little-endian record. -/
theorem test_bfDecode_B2 :
    nextIs
      (exec .bfDecode
        (withRecord 0x83828180 4
          (withDesc 0 (plain 2 31 25) (withDesc 1 (plain 2 24 0) { State.reset with le := true }))))
      (fun t => t.fv[0] == 0x40 && t.fv[1] == 0x0818283) = true := by decide

/-- Vector B14: a strict decode of a value that is no member. -/
theorem test_bfDecode_B14 :
    nextIs (exec .bfDecode (withRecord 0xe0 1 { mhdr with strict := true })) (hasError 1 0x0200) = true := by decide

/-- Vector B12: the largest value passes and the next one fails. -/
theorem test_bfSet_B12 :
    nextIs (exec (.bfSet 3) { withDesc 3 (plain 2 3 0) State.reset with fdata := 15 }) (fun t => t.fv[3] == 15) = true ∧
    nextIs (exec (.bfSet 3) { withDesc 3 (plain 2 3 0) State.reset with fdata := 16 }) (hasError 2 0x0203) = true := by
  decide

/-- Vector B10: membership is tested before the width. -/
theorem test_bfSet_B10 :
    let s := { withDesc 0 { plain 3 2 0 with ecnt := 2 } State.reset with etab := (State.reset.etab.set 0 9).set 1 3 }
    nextIs (exec (.bfSet 0) { s with fdata := 9 }) (hasError 2 0x0400) = true ∧
    nextIs (exec (.bfSet 0) { s with fdata := 4 }) (hasError 3 0x0100) = true := by decide

/-- Vector B11f: a RESERVED field reads as 0 and cannot be set. -/
theorem test_bfGet_B11f :
    nextIs (exec (.bfGet 0) { withDesc 0 (plain 5 7 0) State.reset with fdata := 9, fv := State.reset.fv.set 0 7 })
      (fun t => t.fdata == 0 && t.fv[0] == 7) = true ∧
    nextIs (exec (.bfSet 0) (withDesc 0 (plain 5 7 0) State.reset)) (hasError 6 0x0600) = true := by decide

/-- Vector B11e: an unused slot. -/
theorem test_bfGet_B11e : nextIs (exec (.bfGet 0) State.reset) (hasError 6 0x0600) = true := by decide

/-- Vector B16. -/
theorem test_bfTest_B16 :
    nextIs (exec (.bfTest 0 2) { mhdr with fv := mhdr.fv.set 0 2 }) (fun t => t.t) = true ∧
    nextIs (exec (.bfTest 0 3) { mhdr with fv := mhdr.fv.set 0 2, t := true }) (fun t => !t.t) = true ∧
    nextIs (exec (.bfTest 0 7) { mhdr with t := true }) (fun t => hasError 6 0x0600 t && t.t) = true := by decide

/-- Vectors B11d and B14. -/
theorem test_bfEchk_B14 :
    nextIs (exec (.bfEchk 0) { mhdr with fv := mhdr.fv.set 0 7 }) (hasError 1 0x0200) = true ∧
    nextIs (exec (.bfEchk 2) (withDesc 2 { plain 3 3 0 with ebase := 60, ecnt := 4 } State.reset)) hasDone = true := by
  decide

/-- R145. -/
theorem test_bfClr : nextIs (exec .bfClr { mhdr with fv := mhdr.fv.set 0 7 }) (fun t => t.fv[0] == 0) = true := by
  decide

/-! ## The host port -/

/-- Vectors H1 and H3 and table T78: registers at their offsets, and holes between them. -/
theorem test_map_of_the_window :
    regAt 0x000 = some .id ∧ regAt 0x038 = some .bfctrl ∧ regAt 0x03C = none ∧ regAt 0x08C = some (.rbuf 3) ∧
    regAt 0x17C = some (.descB 15) ∧ regAt 0x180 = none ∧ regAt 0x4FC = some (.dbuf 63) ∧ regAt 0x500 = none := by
  decide

/-- The lanes of R74 on the example of that rule. -/
theorem test_lanes :
    readBytes (writeReg (.dbuf 1) 0x01020080 (writeReg (.dbuf 0) 0x81828340 State.reset)).mem 0x400 8 =
      [0x40, 0x83, 0x82, 0x81, 0x80, 0x00, 0x02, 0x01] := by decide

/-- Vector S11: the write-one-to-clear bits. -/
theorem test_status_S11 :
    statusWord (writeReg .status 0xFFFFFFFF { State.reset with done := true, err := true, werr := true, t := true }) =
      0x10 := by decide

/-- Vector K11 and R40: bits that read as zero. -/
theorem test_reads_as_zero :
    readReg (writeReg .fcnt 0x0001FFFF State.reset) .fcnt = 0x0000FFFF ∧
    readReg (writeReg (.descA 4) 0xFFFFFFFF State.reset) (.descA 4) = 0x00077F7F ∧
    readReg (writeReg (.descB 4) 0xFFFFFFFF State.reset) (.descB 4) = 0x1FFFFFFF := by decide

/-! ## Witnesses: for each statement with hypotheses, a concrete state and operands that meet them all

Each name is the statement's; a suffix tells the clause. -/

/-- MaskAndMatchOfTheOpcodeMap: the largest field index and the largest member index. -/
theorem witness_maskAndMatch :
    (0x00000F22#32 &&& 0xFFFF00FF = 0x22 ∧ (0x00000F22#32).extractLsb' 8 8 = 15 ∧ (15#8).toNat < 16) ∧
    (0x00FF0F24#32 &&& 0xFF0000FF = 0x24 ∧ (0x00FF0F24#32).extractLsb' 8 8 = 15 ∧
      (0x00FF0F24#32).extractLsb' 16 8 = 255) := by decide

theorem witness_wordsOfTheEncodingExamples :
    (busyWith 0x112 State.reset).cmdr = 0x112 ∧ (busyWith 0x1022 State.reset).cmdr = 0x1022 ∧
    (busyWith 0x2 State.reset).cmdr = 0x2 := by decide

/-- IllegalWordsRaiseIllcmdInOrder, the fields of a word. -/
def fields (w : Nat) : Nat × Nat × Nat × Nat := (w % 256, w / 256 % 256, w / 65536 % 256, w / 16777216)

/-- Clause 1 at the opcodes beside each group, clause 2 at each must-be-zero field, clause 3 at F = 16 and 255, clause 4
at F = 15. -/
theorem witness_illegalWords :
    let z0 := [0x00, 0x01, 0x10, 0x11, 0x12, 0x13, 0x14, 0x20, 0x21, 0x26]
    let f1 := [0x22, 0x23, 0x25]
    let opcodes := z0 ++ f1 ++ [0x24]
    (fields 0x00000002).1 ∉ opcodes ∧ (fields 0x00000015).1 ∉ opcodes ∧ (fields 0x00000027).1 ∉ opcodes ∧
    (fields 0x01000024 = (0x24, 0, 0, 1)) ∧ (fields 0x00010022 = (0x22, 0, 1, 0)) ∧
    (fields 0x00000100 = (0x00, 1, 0, 0)) ∧ (fields 0x00001022 = (0x22, 16, 0, 0)) ∧
    (fields 0x0000FF23 = (0x23, 255, 0, 0)) ∧ (fields 0x00FF0F24 = (0x24, 15, 255, 0)) := by decide

/-- StepRunsTheDecodedCommand, its six clauses. -/
theorem witness_stepRunsTheDecodedCommand :
    ((busyWith 0xF22 State.reset).busy = true ∧ decode (busyWith 0xF22 State.reset).cmdr = .ok (.bfSet 15) ∧
      (busyWith 0xF22 State.reset).script = []) ∧
    ({ busyWith 0xF22 State.reset with script := [.engine, .reset] }.script = [.engine, .reset]) ∧
    ((busyWith 0x1022 State.reset).busy = true ∧ decode (busyWith 0x1022 State.reset).cmdr = .error (.fieldIndex 16) ∧
      (busyWith 0x1022 State.reset).script = []) ∧
    (decode { busyWith 0x1022 State.reset with script := [.engine, .reset] }.cmdr = .error (.fieldIndex 16) ∧
      { busyWith 0x1022 State.reset with script := [.engine, .reset] }.script = [.engine, .reset]) ∧
    (State.reset.busy = false ∧ { State.reset with script := [.engine] }.script = [.engine]) ∧
    (State.reset.script = []) ∧
    ({ State.reset with script := [.read 0 4, .reset] }.script = [.read 0 4, .reset]) ∧
    ({ State.reset with script := [.write 4 4 0x13] }.script = [.write 4 4 0x13]) :=
  ⟨⟨rfl, rfl, rfl⟩, rfl, ⟨rfl, rfl, rfl⟩, ⟨rfl, rfl⟩, ⟨rfl, rfl⟩, rfl, rfl, rfl⟩

theorem witness_placedWordRunsNext : decode 0x00000F22 = .ok (.bfSet 15) := rfl

theorem witness_busyBlockAlwaysCompletes :
    { busyWith 0x13 State.reset with script := [.read 0 4, .write 0 4 0, .engine] }.busy = true := rfl

/-- InvariantKeptByEveryStep: a command in progress on a buffer that is not empty. -/
theorem witness_invariantKept :
    let s := busyWith 0x00000000 (withData 0x01 1 State.reset)
    Inv s ∧ ∃ t, step s = .next t :=
  ⟨⟨fun _ => ⟨rfl, rfl⟩, fun _ => ⟨rfl, rfl⟩, fun h => absurd h (by decide), (by decide : Memory.wf _ = true),
    by unfold memInBuffers; decide⟩, _, rfl⟩

/-- InvariantKeptByEveryStep: the same with an error on record. -/
theorem witness_invariantKept_error :
    let s : State := { State.reset with err := true, errcode := 5, errinfo := 0x0310 }
    Inv s ∧ ∃ t, step s = .next t :=
  ⟨⟨fun h => absurd h (by decide), fun h => absurd h (by decide),
    fun _ => ⟨⟨.illcmd, 3, 16⟩, .inr (.inr ⟨rfl, rfl, by decide⟩), rfl, rfl⟩, (by decide : Memory.wf _ = true),
    by unfold memInBuffers; decide⟩, _, rfl⟩

theorem witness_errorsArePrecise :
    let s := busyWith 0x00001022 State.reset
    s.busy = true ∧ s.err = false ∧ ∃ t, engineStep s = .next t ∧ t.err = true :=
  ⟨rfl, rfl, exists_of_nextIs _ (fun t => t.err) (by decide)⟩

/-- CompletionSetsOneOfDoneAndErr: SRST, a success and a failure. -/
theorem witness_completionSetsOneOfDoneAndErr :
    ((busyWith 1 State.reset).cmdr = 1 ∧ ∃ t, engineStep (busyWith 1 State.reset) = .next t) ∧
    ((busyWith 0 State.reset).cmdr ≠ 1 ∧ (busyWith 0 State.reset).busy = true ∧ (busyWith 0 State.reset).err = false ∧
      (busyWith 0 State.reset).done = false ∧ ∃ t, engineStep (busyWith 0 State.reset) = .next t) ∧
    ((busyWith 2 State.reset).cmdr ≠ 1 ∧ ∃ t, engineStep (busyWith 2 State.reset) = .next t) :=
  ⟨⟨rfl, _, rfl⟩, ⟨by decide, rfl, rfl, rfl, _, rfl⟩, ⟨by decide, _, rfl⟩⟩

theorem witness_busyIntervalFreezesTheState :
    let s := { busyWith 0x13 State.reset with script := [.write 0x020 4 0] }
    s.busy = true ∧ s.err = false ∧ s.errcode = 0 ∧ s.errinfo = 0 ∧ s.script = [.write 0x020 4 0] ∧
      Event.write 0x020 4 0 ≠ .engine ∧ Event.write 0x020 4 0 ≠ .reset := by decide

theorem witness_commandsIgnoreWerrAndEnables :
    Instr.ecbEnc ≠ .srst ∧ ∃ t, exec .ecbEnc State.reset = .next t :=
  ⟨by decide, (exists_of_nextIs _ (fun _ => true) (by decide)).imp fun _ h => h.1⟩

/-- AcceptanceOfACommand: accepted, dropped while busy, dropped with an error on record. -/
theorem witness_acceptanceOfACommand :
    (State.reset.busy = false ∧ State.reset.err = false) ∧ (busyWith 0 State.reset).busy = true ∧
    { State.reset with err := true }.err = true := by decide

/-- DroppedWritesOnlySetWerr: case (a), case (b), neither. -/
theorem witness_droppedWritesOnlySetWerr :
    ((busyWith 0 State.reset).busy = true ∧ Reg.id ≠ .status ∧ Reg.id ≠ .ien) ∧
    ({ State.reset with err := true }.busy = false ∧ { State.reset with err := true }.err = true) ∧
    ¬((busyWith 0 State.reset).busy = true ∧ Reg.ien ≠ .status ∧ Reg.ien ≠ .ien) := by decide

/-- The offsets that UnmappedOffsetsAnswerBusError calls unmapped. -/
abbrev unmappedOffset (off : Nat) : Prop :=
  (0x018 ≤ off ∧ off ≤ 0x01C) ∨ off = 0x03C ∨ (0x070 ≤ off ∧ off ≤ 0x07C) ∨
    (0x090 ≤ off ∧ off ≤ 0x0FC) ∨ (0x180 ≤ off ∧ off ≤ 0x1FC) ∨ (0x300 ≤ off ∧ off ≤ 0x3FC) ∨
    (0x500 ≤ off ∧ off ≤ 0xFFC)

/-- UnmappedOffsetsAnswerBusError: the first and last offsets of holes, and mapped offsets beside them. -/
theorem witness_unmappedOffsetsAnswerBusError :
    (0x018 < 4096 ∧ 0x018 % 4 = 0 ∧ unmappedOffset 0x018) ∧
    (0xFFC < 4096 ∧ 0xFFC % 4 = 0 ∧ unmappedOffset 0xFFC) ∧
    ¬unmappedOffset 0x000 ∧ ¬unmappedOffset 0x014 ∧ ¬unmappedOffset 0x038 ∧ ¬unmappedOffset 0x4FC := by
  repeat' apply And.intro
  all_goals decide

/-- OtherWidthsAndAlignmentsAnswerBusError: a narrow access, a misaligned one, the first aligned word above the window,
and the last below it (where the base leaves room below), and a pending fetch. -/
theorem witness_otherWidthsAndAlignments :
    2 ≠ 4 ∧ 0x402 % 4 ≠ 0 ∧
    ((Config.base + 4096) % 4 = 0 ∧ Config.base + 4096 ≤ Config.base + 4096) ∧
    (0 < Config.base → (Config.base - 4) % 4 = 0 ∧ Config.base - 4 < Config.base) ∧
    { State.reset with script := [.fetch 0 4] }.script = [.fetch 0 4] := by
  have hb := base_aligned
  generalize Config.base = b at hb ⊢
  exact ⟨by decide, by decide, ⟨by omega, Nat.le_refl _⟩, fun _ => ⟨by omega, by omega⟩, rfl⟩

/-- The states of ByteLanesOfTheBuffers and WrittenRegistersReadBackMasked. -/
theorem witness_byteLanesOfTheBuffers :
    (withData 0x4083828180 5 State.reset).busy = false ∧ Memory.wf (withData 0x4083828180 5 State.reset).mem = true := by
  decide

/-- WrittenRegistersReadBackMasked, without and with an error on record. -/
theorem witness_writtenRegistersReadBackMasked :
    ((withRecord 0x40 16 mhdr).busy = false ∧ Memory.wf (withRecord 0x40 16 mhdr).mem = true ∧
      (withRecord 0x40 16 mhdr).err = false) ∧
    ({ mhdr with err := true }.busy = false ∧ Memory.wf { mhdr with err := true }.mem = true ∧
      { mhdr with err := true }.err = true) := by decide

/-- NoTwoRegistersAlias, the clauses on other registers and on KEY. -/
theorem witness_noTwoRegistersAlias :
    (State.reset.busy = false ∧ Reg.descA 15 ≠ .cmd ∧ Reg.descA 15 ≠ .status ∧ Reg.descB 15 ≠ .descA 15) ∧
    ∀ j : Fin 4, Reg.klen ≠ .key j := by decide

/-- CmacFollowsItsRules: the first and the last block of the chain of a message of 40 bytes. -/
theorem witness_cmacFollowsItsRules : 0 + 1 < (40 + 15) / 16 ∧ 1 + 1 < (40 + 15) / 16 := by decide

theorem witness_errorReturnByTheHost :
    { State.reset with err := true, errcode := 4, errinfo := 0x01FF }.busy = false ∧
    { State.reset with err := true, errcode := 4, errinfo := 0x01FF }.err = true := by decide

/-- ReadsReturnTheRegisterAndChangeNothing and SboxIsTheAffineMapOfTheInverse: the last bit, the first and last byte. -/
theorem witness_bitsAndBytes : 31 < 32 ∧ (1 : Byte) ≠ 0 ∧ (255 : Byte) ≠ 0 := by decide

theorem witness_scriptLines : State.reset.busy = false := rfl

theorem witness_resetEvent :
    { busyWith 0x13 frame with script := [.reset, .engine] }.script = [.reset, .engine] := rfl

/-- KeyedCommandsCheckKeyThenLength: KLEN 15 and 17, DLEN 257, 17 and 256. -/
theorem witness_keyedCommandsCheck :
    Instr.cmac ∈ [Instr.ecbEnc, .ecbDec, .ksXor, .cmac, .micData] ∧ { frame with klen := 15 }.klen.toNat ≠ 16 ∧
    { frame with klen := 17 }.klen.toNat ≠ 16 ∧ frame.klen.toNat = 16 ∧ 256 < { frame with dlen := 257 }.dlen.toNat ∧
    ({ frame with dlen := 17 }.dlen.toNat ≤ 256 ∧ { frame with dlen := 17 }.dlen.toNat % 16 ≠ 0) ∧
    { frame with dlen := 256 }.dlen.toNat = 256 := by decide

/-- EcbEncEncryptsEachBlock, EcbDecDecryptsEachBlock and EcbCommandsAreMutuallyInverse, at the largest DLEN and at 0. -/
theorem witness_ecbCommands :
    let s := { withData 0x00112233445566778899aabbccddeeff 16 (keyed 1) with dlen := 256 }
    (Memory.wf s.mem = true ∧ s.klen.toNat = 16 ∧ s.dlen.toNat ≤ 256 ∧ s.dlen.toNat % 16 = 0 ∧ 15 < s.dlen.toNat / 16) ∧
    ((keyed 1).klen.toNat = 16 ∧ (keyed 1).dlen.toNat % 16 = 0) := by decide

/-- KsXorAppliesTheKeystream and KsXorIsItsOwnInverse, with a short last block and at the largest DLEN. -/
theorem witness_ksXor :
    let s := withData 0x0102030405060708090a0b0c0d0e0f1011 17 frame
    (Memory.wf s.mem = true ∧ s.klen.toNat = 16 ∧ s.dlen.toNat ≤ 256 ∧ 16 * 1 + 0 < s.dlen.toNat) ∧
    { s with dlen := 256 }.dlen.toNat ≤ 256 := by decide

theorem witness_cmacLeavesTheTag : frame.klen.toNat = 16 ∧ { frame with dlen := 256 }.dlen.toNat ≤ 256 := by decide

theorem witness_micDataLeavesTheTag : frame.klen.toNat = 16 ∧ { frame with dlen := 255 }.dlen.toNat ≤ 255 := by decide

/-- RecordWidthOfTheTable: an empty table, and a slot that holds the largest HI. -/
theorem witness_recordWidthOfTheTable :
    (∀ f : Fin 16, ¬inUse State.reset.desc[f]) ∧
    (inUse mhdr.desc[(0 : Fin 16)] ∧
      ∀ g : Fin 16, inUse mhdr.desc[g] → mhdr.desc[g].hi.toNat ≤ mhdr.desc[(0 : Fin 16)].hi.toNat) := by decide

/-- InvalidTablesAreRefused, an invalid and a valid table. -/
theorem witness_invalidTablesAreRefused :
    (State.reset.err = false ∧ ¬tableValid (withDesc 15 (plain 6 0 0) State.reset).desc ∧
      ∃ t, exec .bfEncode (withDesc 15 (plain 6 0 0) State.reset) = .next t) ∧
    (tableValid mhdr.desc ∧ ∃ t, exec .bfEncode mhdr = .next t) :=
  ⟨⟨rfl, by decide, (exists_of_nextIs _ (fun _ => true) (by decide)).imp fun _ h => h.1⟩,
    by decide, (exists_of_nextIs _ (fun _ => true) (by decide)).imp fun _ h => h.1⟩

/-- A table whose slots below f pass the scan. -/
abbrev lowerSlotsPass (desc : Vector Desc 16) (f : Fin 16) : Prop :=
  (∀ g : Fin 16, g < f → descValid desc[g]) ∧ ∀ g h : Fin 16, g < f → h < g → ¬shareBit desc[g] desc[h]

/-- The record MHDR with one more descriptor, in slot 3. -/
abbrev mhdrAnd (d : Desc) : Vector Desc 16 := (withDesc 3 d mhdr).desc

/-- An ENUM field of two members whose slice of ETAB ends beyond entry 63. -/
def beyondEtab : Desc := { plain 3 9 8 with ebase := 63, ecnt := 2 }

/-- TableScanReportsTheFirstFailure, its five clauses on slot 3 above the record MHDR; the codes at the ends of the
range of clause 2. -/
theorem witness_tableScanReportsTheFirstFailure :
    (lowerSlotsPass (mhdrAnd (plain 6 0 0)) 3 ∧ 6 ≤ (plain 6 0 0).kind.toNat) ∧
    (lowerSlotsPass (mhdrAnd (plain 5 8 9)) 3 ∧ (plain 5 8 9).kind.toNat ≤ 5 ∧ (plain 5 8 9).hi.toNat < (plain 5 8 9).lo.toNat) ∧
    (lowerSlotsPass (mhdrAnd (plain 4 16 8)) 3 ∧ fieldWidth (plain 4 16 8) % 8 ≠ 0) ∧
    (lowerSlotsPass (mhdrAnd beyondEtab) 3 ∧ 64 < beyondEtab.ebase.toNat + beyondEtab.ecnt.toNat) ∧
    (lowerSlotsPass (mhdrAnd (plain 5 9 7)) 3 ∧ descValid (plain 5 9 7) ∧
      ∃ g : Fin 16, g < 3 ∧ shareBit (plain 5 9 7) (mhdrAnd (plain 5 9 7))[g]) := by
  repeat' apply And.intro
  all_goals decide

/-- FieldCommandsCheckTheirDescriptor: F = 16 and the four faults of a descriptor in slot 15. -/
theorem witness_fieldCommandsCheckTheirDescriptor :
    Instr.bfTest 15 255 ∈ [Instr.bfSet 15, .bfGet 15, .bfTest 15 255, .bfEchk 15] ∧ 16 ≤ (16#8).toNat ∧
    (15 : Fin 16).val = (15#8).toNat ∧ 6 ≤ (plain 6 0 0).kind.toNat ∧
    (1 ≤ (plain 1 0 1).kind.toNat ∧ (plain 1 0 1).kind.toNat ≤ 5 ∧ (plain 1 0 1).hi.toNat < (plain 1 0 1).lo.toNat) ∧
    ((plain 4 8 0).kind = 4 ∧ (plain 4 8 0).lo.toNat ≤ (plain 4 8 0).hi.toNat ∧ fieldWidth (plain 4 8 0) % 8 ≠ 0) ∧
    (beyondEtab.kind = 3 ∧ beyondEtab.lo.toNat ≤ beyondEtab.hi.toNat ∧
      64 < beyondEtab.ebase.toNat + beyondEtab.ecnt.toNat) := by decide

/-- RawIntegerBitByBit: the top bit of a field, and an uncovered bit. -/
theorem witness_rawIntegerBitByBit :
    tableValid mhdr.desc ∧ carriesValue mhdr.desc[(0 : Fin 16)] ∧ 2 < fieldWidth mhdr.desc[(0 : Fin 16)] ∧
    ∀ f : Fin 16, carriesValue mhdr.desc[f] → 4 < mhdr.desc[f].lo.toNat ∨ mhdr.desc[f].hi.toNat < 4 := by decide

theorem witness_bfEncodePacksTheRecord :
    Memory.wf (withRecord 0xe0 1 mhdr).mem = true ∧ tableValid (withRecord 0xe0 1 mhdr).desc ∧
    7 < 8 * recordWidth mhdr.desc := by decide

/-- The field bits of the byte 0x5f in the record MHDR (vector B13): 2 and 3. -/
def fieldBitsOf5f (f : Fin 16) : Nat := if f = 0 then 2 else if f = 2 then 3 else 0

/-- The record MHDR with the byte 0x5f to decode, strictly. -/
def decode5f : State := withRecord 0x5f 1 { mhdr with strict := true }

set_option maxRecDepth 100000 in
theorem witness_bfDecodeUnpacksTheRecord :
    tableValid decode5f.desc ∧ recordWidth decode5f.desc ≤ decode5f.rlen.toNat ∧
    ∀ f : Fin 16, carriesValue decode5f.desc[f] →
      rbufField decode5f (recordWidth decode5f.desc) decode5f.desc[f] (fieldBitsOf5f f) ∧
        decodable decode5f decode5f.desc[f] (fieldBitsOf5f f) := by
  repeat' apply And.intro
  all_goals decide

/-- The record MHDR with the byte 0xe0 to decode, strictly (vector B14). -/
def decodeE0 : State := withRecord 0xe0 1 { mhdr with strict := true }

/-- The field bits of the byte 0xe0 in the record MHDR. -/
def fieldBitsOfE0 (f : Fin 16) : Nat := if f = 0 then 7 else 0

set_option maxRecDepth 100000 in
/-- BfDecodeReportsTheFirstBadField: one byte too few, and the byte 0xe0 under STRICT. -/
theorem witness_bfDecodeReportsTheFirstBadField :
    (tableValid mhdr.desc ∧ mhdr.rlen.toNat < recordWidth mhdr.desc) ∧
    tableValid decodeE0.desc ∧ recordWidth decodeE0.desc ≤ decodeE0.rlen.toNat ∧
    (∀ g : Fin 16, carriesValue decodeE0.desc[g] →
      rbufField decodeE0 (recordWidth decodeE0.desc) decodeE0.desc[g] (fieldBitsOfE0 g)) ∧
    (∀ g : Fin 16, g < 0 → decodable decodeE0 decodeE0.desc[g] (fieldBitsOfE0 g)) ∧
    ¬decodable decodeE0 decodeE0.desc[(0 : Fin 16)] (fieldBitsOfE0 0) := by
  repeat' apply And.intro
  all_goals decide

/-- The record MHDR holding its largest values. -/
def mhdrFull : State := { mhdr with fv := (mhdr.fv.set 0 6).set 2 3, strict := true }

set_option maxRecDepth 100000 in
theorem witness_decodeAfterEncode :
    Memory.wf mhdrFull.mem = true ∧ tableValid mhdrFull.desc ∧
    ∀ f : Fin 16, settable mhdrFull.etab mhdrFull.desc[f] mhdrFull.fv[f] := by
  repeat' apply And.intro
  all_goals decide

theorem witness_encodeAfterDecode :
    Memory.wf decode5f.mem = true ∧ decode5f.err = false ∧ ∃ t, exec .bfDecode decode5f = .next t ∧ t.err = false :=
  ⟨by decide, rfl,
    (exists_of_nextIs _ (fun t => !t.err) (by decide)).imp fun _ h => ⟨h.1, by simpa using h.2⟩⟩

/-- A NUMERIC field of four bits with the scale 5. -/
def scaled : Desc := { plain 2 3 0 with scale := 5 }

/-- The ENUM field of vector B10, of three bits, with its two members 9 and 3. -/
def narrowEnum : Desc := { plain 3 2 0 with ecnt := 2 }

/-- The enum table of vector B10. -/
def narrowEtab : Vector Word 64 := (State.reset.etab.set 0 9).set 1 3

set_option maxRecDepth 100000 in
/-- BfSetValidatesByKind: each kind at its boundary values. -/
theorem witness_bfSetValidatesByKind :
    descValid (plain 0 0 0) ∧ descValid (plain 5 7 0) ∧ descValid (plain 1 0 0) ∧
    (descValid scaled ∧ 3 * scaleFactor scaled < 2 ^ fieldWidth scaled ∧
      2 ^ fieldWidth scaled ≤ 4 * scaleFactor scaled) ∧
    (descValid narrowEnum ∧ ¬memberOf narrowEtab narrowEnum 4 ∧
      (memberOf narrowEtab narrowEnum 9 ∧ 2 ^ fieldWidth narrowEnum ≤ 9) ∧
      (memberOf narrowEtab narrowEnum 3 ∧ 3 < 2 ^ fieldWidth narrowEnum)) ∧
    (descValid (plain 4 7 0) ∧ 255 < 2 ^ fieldWidth (plain 4 7 0) ∧ 2 ^ fieldWidth (plain 4 7 0) ≤ 256) := by
  repeat' apply And.intro
  all_goals decide

/-- The message-type field of the record MHDR, slot 0. -/
abbrev mhdrType : Desc := mhdr.desc[(0 : Fin 16)]

/-- BfGetReadsTheField: an unused, a RESERVED and a carrying slot. -/
theorem witness_bfGetReadsTheField :
    (descValid mhdr.desc[(15 : Fin 16)] ∧ mhdr.desc[(15 : Fin 16)].kind = 0) ∧
    (descValid mhdr.desc[(1 : Fin 16)] ∧ mhdr.desc[(1 : Fin 16)].kind = 5) ∧
    (descValid mhdr.desc[(0 : Fin 16)] ∧ carriesValue mhdr.desc[(0 : Fin 16)]) := by decide

/-- BfTestComparesWithTheMember: another kind, the first member that is none, the last that is one. -/
theorem witness_bfTestComparesWithTheMember :
    (descValid mhdr.desc[(2 : Fin 16)] ∧ mhdr.desc[(2 : Fin 16)].kind ≠ 3) ∧
    (descValid mhdrType ∧ mhdrType.kind = 3 ∧ mhdrType.ecnt.toNat ≤ (7#8).toNat ∧ (6#8).toNat < mhdrType.ecnt.toNat ∧
      (6 : Fin 64).val = mhdrType.ebase.toNat + (6#8).toNat) := by decide

set_option maxRecDepth 100000 in
/-- BfEchkChecksMembership: another kind, a value that is no member, the largest member. -/
theorem witness_bfEchkChecksMembership :
    (descValid mhdr.desc[(2 : Fin 16)] ∧ mhdr.desc[(2 : Fin 16)].kind ≠ 3) ∧
    (descValid mhdrType ∧ mhdrType.kind = 3 ∧ ¬memberOf mhdr.etab mhdrType 7 ∧ memberOf mhdr.etab mhdrType 6) := by
  repeat' apply And.intro
  all_goals decide

end Sys2Proof.Tests
end

namespace Sys2Proof.StateFamily

open Sys2Proof.Machine Sys2Proof.Safety

/-! # The invariant of the block (10_state.md R23, table T242)

Every command ends in one of two ways: its rule raises an error, or it gives a state and DONE is set.  `EndsIn` says that
the error is a row of table T242 and the state has a property; it composes over the checks of a rule, so each command's
lemma follows its rule line by line. -/

/-! ## How a rule ends -/

/-- A rule ends with an error of table T242 or with a result that has the property. -/
def EndsIn {α : Type} (P : α → Prop) : Except CmdError α → Prop
  | .error e => inTable242 e
  | .ok a => P a

theorem endsIn_bind {α β : Type} {P : α → Prop} {Q : β → Prop} {x : Except CmdError α}
    {g : α → Except CmdError β} (hx : EndsIn P x) (hg : ∀ a, P a → EndsIn Q (g a)) : EndsIn Q (x >>= g) := by
  cases x with
  | error e => exact hx
  | ok a => exact hg a hx

theorem endsIn_mono {α : Type} {P Q : α → Prop} {x : Except CmdError α} (hx : EndsIn P x) (h : ∀ a, P a → Q a) :
    EndsIn Q x := by
  cases x with
  | error e => exact hx
  | ok a => exact h a hx

theorem endsIn_require {c : Bool} {e : CmdError} (he : inTable242 e) : EndsIn (fun _ => c = true) (require c e) := by
  cases c with
  | false => exact he
  | true => rfl

theorem endsIn_checkEach {check : Fin 16 → Except CmdError Unit} (h : ∀ f, EndsIn (fun _ => True) (check f))
    (fs : List (Fin 16)) : EndsIn (fun _ => True) (checkEach check fs) := by
  cases hr : checkEach check fs with
  | ok u => trivial
  | error e =>
    obtain ⟨-, f, -, -, -, hf⟩ := (checkEach_eq_error check fs e).1 hr
    simpa [hf] using h f

/-! ## The rows of table T242 -/

theorem inTable242_of_fieldRow {c : ErrCode} {sub : Byte} (f : Fin 16) (h : (c, sub.toNat) ∈ fieldRows) :
    inTable242 ⟨c, sub, fieldByte f⟩ :=
  .inl ⟨h, by simp only [fieldByte, BitVec.toNat_ofNat]; omega⟩

theorem inTable242_of_plainRow {c : ErrCode} {sub : Byte} (h : (c, sub.toNat) ∈ plainRows) :
    inTable242 ⟨c, sub, noField⟩ :=
  .inr (.inl ⟨h, rfl⟩)

/-- A check of one field whose failure is a row of the table. -/
theorem endsIn_requireField {c : Bool} {code : ErrCode} {sub : Byte} (f : Fin 16)
    (h : (code, sub.toNat) ∈ fieldRows) : EndsIn (fun _ => True) (require c ⟨code, sub, fieldByte f⟩) :=
  endsIn_mono (endsIn_require (inTable242_of_fieldRow f h)) fun _ _ => trivial

/-! ## The checks -/

theorem endsIn_checkKey (s : State) : EndsIn (fun _ => True) (checkKey s) :=
  endsIn_mono (endsIn_require (inTable242_of_plainRow (by decide))) fun _ _ => trivial

theorem endsIn_checkDataLength (s : State) : EndsIn (fun _ => s.dlen.toNat ≤ 256) (checkDataLength s) :=
  endsIn_mono (endsIn_require (inTable242_of_plainRow (by decide))) fun _ h => of_decide_eq_true h

theorem endsIn_checkWholeBlocks (s : State) : EndsIn (fun _ => True) (checkWholeBlocks s) :=
  endsIn_mono (endsIn_require (inTable242_of_plainRow (by decide))) fun _ _ => trivial

theorem endsIn_checkMicLength (s : State) : EndsIn (fun _ => True) (checkMicLength s) :=
  endsIn_mono (endsIn_require (inTable242_of_plainRow (by decide))) fun _ _ => trivial

theorem endsIn_fieldOperand (f : Byte) : EndsIn (fun _ => True) (fieldOperand f) := by
  by_cases h : f.toNat < 16
  · rw [fieldOperand_of_lt f h]
    trivial
  · rw [fieldOperand_of_le f (by omega)]
    exact .inr (.inr ⟨rfl, rfl, by simpa using h⟩)

theorem endsIn_checkDesc (f : Fin 16) (d : Desc) : EndsIn (fun _ => True) (checkDesc f d) := by
  unfold checkDesc
  split
  · exact inTable242_of_fieldRow f (by decide)
  split
  · trivial
  split
  · exact inTable242_of_fieldRow f (by decide)
  split
  · exact inTable242_of_fieldRow f (by decide)
  split
  · exact inTable242_of_fieldRow f (by decide)
  · trivial

theorem endsIn_checkTable (desc : Vector Desc 16) : EndsIn (fun _ => True) (checkTable desc) :=
  endsIn_checkEach
    (fun f => endsIn_bind (endsIn_checkDesc f desc[f]) fun _ _ => endsIn_requireField f (by decide)) _

theorem endsIn_checkBits (etab : Vector Word 64) (strict : Bool) (f : Fin 16) (d : Desc) (x : Nat) :
    EndsIn (fun _ => True) (checkBits etab strict f d x) := by
  unfold checkBits
  cases kindOf d with
  | numeric | enum => exact endsIn_requireField f (by decide)
  | flag | octets | none | reserved | invalid => trivial

theorem endsIn_checkSetter (etab : Vector Word 64) (f : Fin 16) (d : Desc) (v : Value) :
    EndsIn (fun _ => True) (checkSetter etab f d v) := by
  unfold checkSetter
  cases kindOf d with
  | flag | numeric | octets => exact endsIn_requireField f (by decide)
  | enum => exact endsIn_bind (endsIn_requireField f (by decide)) fun _ _ => endsIn_requireField f (by decide)
  | none | reserved | invalid => exact inTable242_of_fieldRow f (by decide)

/-! ## The part of the invariant that does not speak of BUSY and DONE -/

/-- The error record agrees with ERR, and the buffers are canonical and in their places: the invariant without its clause
on BUSY, which a command's rule need not have when it ends. -/
def RecordAndBuffersOk (s : State) : Prop :=
  noErrorNoRecord s ∧ errorIsRecorded s ∧ memCanonical s ∧ memInBuffers s

theorem inv_iff (s : State) : Inv s ↔ busyExclusive s ∧ RecordAndBuffersOk s := Iff.rfl

theorem inv_reset : Inv State.reset :=
  ⟨fun h => absurd h (by decide), fun _ => ⟨rfl, rfl⟩, fun h => absurd h (by decide), reset_mem_wf,
    fun _ h => absurd h List.not_mem_nil⟩

/-- The reset event and SRST give the reset state but for the model's own two fields, of which the invariant does not
speak. -/
theorem inv_resetBlock (s : State) : Inv (resetBlock s) := inv_reset

/-! The other updates of a command touch none of the fields it speaks of. -/

theorem recordAndBuffersOk_setTag (x : Block) {s : State} (hs : RecordAndBuffersOk s) :
    RecordAndBuffersOk (setTag x s) := hs

theorem recordAndBuffersOk_setFdata (v : Value) {s : State} (hs : RecordAndBuffersOk s) :
    RecordAndBuffersOk (setFdata v s) := hs

theorem recordAndBuffersOk_setFv (f : Fin 16) (v : Value) {s : State} (hs : RecordAndBuffersOk s) :
    RecordAndBuffersOk (setFv f v s) := hs

theorem recordAndBuffersOk_setAllFv (v : Vector Value 16) {s : State} (hs : RecordAndBuffersOk s) :
    RecordAndBuffersOk (setAllFv v s) := hs

theorem recordAndBuffersOk_setRlen (n : Byte) {s : State} (hs : RecordAndBuffersOk s) :
    RecordAndBuffersOk (setRlen n s) := hs

theorem recordAndBuffersOk_setT (b : Bool) {s : State} (hs : RecordAndBuffersOk s) :
    RecordAndBuffersOk (setT b s) := hs

/-- A byte string written inside the buffers. -/
theorem recordAndBuffersOk_setMem {s : State} (hs : RecordAndBuffersOk s) (a : Nat) (bs : List Byte)
    (hin : ∀ x, a ≤ x → x < a + bs.length → inBuffers x = true) :
    RecordAndBuffersOk (setMem (writeBytes s.mem a bs) s) := by
  obtain ⟨hno, hrec, hwf, hbuf⟩ := hs
  refine ⟨hno, hrec, writeBytes_wf bs s.mem a hwf, fun c hc => ?_⟩
  rcases mem_writeBytes bs s.mem a c hc with ⟨hlo, hhi⟩ | hc
  · exact hin c.1 hlo hhi
  · exact hbuf c hc

theorem inBuffers_of_rbuf {x : Nat} (hlo : 0x080 ≤ x) (hhi : x < 0x080 + 16) : inBuffers x = true := by
  simp [inBuffers, hlo, hhi]

theorem inBuffers_of_dbuf {x : Nat} (hlo : 0x400 ≤ x) (hhi : x < 0x400 + 256) : inBuffers x = true := by
  simp [inBuffers, hlo, hhi]

/-- Up to 256 bytes written from the start of DBUF. -/
theorem recordAndBuffersOk_writeData {s : State} (hs : RecordAndBuffersOk s) (bs : List Byte)
    (hl : bs.length ≤ 256) : RecordAndBuffersOk (writeData bs s) :=
  recordAndBuffersOk_setMem hs _ bs fun _ hlo hhi => inBuffers_of_dbuf hlo (by
    simp only [Config.dbufBase] at hhi
    omega)

/-! ## The rules of the commands -/

theorem mapBlocks_length_le (g : Block → Block) (bs : List Byte) : (mapBlocks g bs).length ≤ bs.length := by
  rw [mapBlocks, flatMap_blocks_length]
  omega

theorem endsIn_ecbResult {s : State} (g : Block → Block → Block) (hs : RecordAndBuffersOk s) :
    EndsIn RecordAndBuffersOk (ecbResult g s) := by
  refine endsIn_bind (endsIn_checkKey s) fun _ _ => ?_
  refine endsIn_bind (endsIn_checkDataLength s) fun _ hl => ?_
  refine endsIn_bind (endsIn_checkWholeBlocks s) fun _ _ => ?_
  refine recordAndBuffersOk_writeData hs _ ((mapBlocks_length_le _ _).trans ?_)
  simpa [dataBytes] using hl

/-- A rule that ends well leaves the invariant when the command completes, with an error record or with DONE (R105,
R245). -/
theorem inv_of_complete {s t : State} {r : Except CmdError State} (hs : RecordAndBuffersOk s)
    (hr : EndsIn RecordAndBuffersOk r) (h : complete s r = .next t) : Inv t := by
  rcases complete_cases s t r h with ⟨e, rfl, rfl⟩ | ⟨u, rfl, rfl⟩
  · obtain ⟨-, -, hwf, hbuf⟩ := hs
    exact ⟨fun hb => absurd hb (by simp), fun he => absurd he (by simp), fun _ => ⟨e, hr, rfl, rfl⟩, hwf, hbuf⟩
  · exact ⟨fun hb => absurd hb (by simp), hr⟩

/-- A command on one field: F is checked, then its descriptor, then the rule goes on with both. -/
theorem endsIn_fieldCommand {s : State} (b : Byte) {rest : Fin 16 → Except CmdError State}
    (hrest : ∀ f, EndsIn RecordAndBuffersOk (rest f)) :
    EndsIn RecordAndBuffersOk (do
      let f ← fieldOperand b
      checkDesc f s.desc[f]
      rest f) :=
  endsIn_bind (endsIn_fieldOperand b) fun f _ => endsIn_bind (endsIn_checkDesc f s.desc[f]) fun _ _ => hrest f

/-- Every command leaves the invariant, on a state with BUSY = 1 or not. -/
theorem inv_of_exec {i : Instr} {s t : State} (hs : RecordAndBuffersOk s) (h : exec i s = .next t) : Inv t := by
  cases i with
  | nop => exact inv_of_complete (r := .ok s) hs hs h
  | srst =>
    obtain rfl : resetBlock s = t := by simpa [exec, execSrst] using h
    exact inv_resetBlock s
  | ecbEnc => exact inv_of_complete hs (endsIn_ecbResult aesEnc hs) h
  | ecbDec => exact inv_of_complete hs (endsIn_ecbResult aesDec hs) h
  | ksXor =>
    refine inv_of_complete hs ?_ h
    refine endsIn_bind (endsIn_checkKey s) fun _ _ => endsIn_bind (endsIn_checkDataLength s) fun _ hl => ?_
    refine recordAndBuffersOk_writeData hs _ ?_
    simp only [xorBytes, List.length_zipWith, dataBytes, readBytes_length]
    omega
  | cmac =>
    refine inv_of_complete hs ?_ h
    exact endsIn_bind (endsIn_checkKey s) fun _ _ => endsIn_bind (endsIn_checkDataLength s) fun _ _ =>
      recordAndBuffersOk_setTag _ hs
  | micData =>
    refine inv_of_complete hs ?_ h
    exact endsIn_bind (endsIn_checkKey s) fun _ _ => endsIn_bind (endsIn_checkDataLength s) fun _ _ =>
      endsIn_bind (endsIn_checkMicLength s) fun _ _ => recordAndBuffersOk_setTag _ hs
  | bfEncode =>
    refine inv_of_complete hs ?_ h
    refine endsIn_bind (endsIn_checkTable s.desc) fun _ _ => recordAndBuffersOk_setRlen _ ?_
    have hw := recordWidth_le s.desc
    refine recordAndBuffersOk_setMem hs _ _ fun x hlo hhi => inBuffers_of_rbuf hlo ?_
    simp only [Config.rbufBase, Config.rbufBytes, List.length_append, toBytes_length, zeroBytes,
      List.length_replicate] at hhi
    omega
  | bfDecode =>
    refine inv_of_complete hs ?_ h
    refine endsIn_bind (endsIn_checkTable s.desc) fun _ _ => ?_
    refine endsIn_bind (endsIn_require (inTable242_of_plainRow (by decide))) fun _ _ => ?_
    exact endsIn_bind (endsIn_checkEach (fun f => endsIn_checkBits _ _ f _ _) _) fun _ _ =>
      recordAndBuffersOk_setAllFv _ hs
  | bfSet b =>
    refine inv_of_complete hs (endsIn_fieldCommand b fun f => ?_) h
    exact endsIn_bind (endsIn_checkSetter s.etab f s.desc[f] s.fdata) fun _ _ => recordAndBuffersOk_setFv f _ hs
  | bfGet b =>
    refine inv_of_complete hs (endsIn_fieldCommand b fun f => ?_) h
    exact endsIn_bind (endsIn_requireField f (by decide)) fun _ _ => recordAndBuffersOk_setFdata _ hs
  | bfTest b k =>
    refine inv_of_complete hs (endsIn_fieldCommand b fun f => ?_) h
    exact endsIn_bind (endsIn_requireField f (by decide)) fun _ _ =>
      endsIn_bind (endsIn_requireField f (by decide)) fun _ _ => recordAndBuffersOk_setT _ hs
  | bfEchk b =>
    refine inv_of_complete hs (endsIn_fieldCommand b fun f => ?_) h
    exact endsIn_bind (endsIn_requireField f (by decide)) fun _ _ =>
      endsIn_bind (endsIn_requireField f (by decide)) fun _ _ => hs
  | bfClr =>
    exact inv_of_complete (r := .ok (setAllFv (Vector.replicate 16 0) s)) hs (recordAndBuffersOk_setAllFv _ hs) h

/-! ## The steps of the engine and of the host -/

/-- A decode fails on the field index only when it is 16 or more (R102). -/
theorem le_of_decode_fieldIndex {w : Word} {f : Byte} (h : decode w = .error (.fieldIndex f)) : 16 ≤ f.toNat := by
  have of_not_ok : ∀ g, ¬fieldIndexOk g = true → DecodeError.fieldIndex g = .fieldIndex f → 16 ≤ f.toNat := by
    rintro g hg ⟨⟩
    simpa [fieldIndexOk] using hg
  unfold decode at h
  split at h
  · simp at h
  · split at h <;> simp at h
  · split at h
    · split at h
      · simp at h
      next hok => exact of_not_ok _ hok (Except.error.inj h)
    · simp at h
  · split at h
    · split at h
      · simp at h
      next hok => exact of_not_ok _ hok (Except.error.inj h)
    · simp at h

/-- The error of a word that is no command is a row of the table (R102). -/
theorem inTable242_illegalCommand {w : Word} {e : DecodeError} (h : decode w = .error e) :
    inTable242 (illegalCommand e) := by
  cases e with
  | unknownOpcode | nonzeroField => exact inTable242_of_plainRow (by decide)
  | fieldIndex f => exact .inr (.inr ⟨rfl, rfl, le_of_decode_fieldIndex h⟩)

theorem inv_of_engineStep {s t : State} (hs : Inv s) (h : engineStep s = .next t) : Inv t := by
  obtain ⟨-, hok⟩ := (inv_iff s).1 hs
  cases hb : s.busy with
  | false =>
    obtain rfl : s = t := by simpa [engineStep_idle s hb] using h
    exact hs
  | true =>
    rw [engineStep_busy s hb] at h
    cases hd : decode s.cmdr with
    | ok i => exact inv_of_exec hok (completionStep_of_decode s i hd ▸ h)
    | error e =>
      rw [completionStep_of_illegal s e hd, ← complete_error] at h
      exact inv_of_complete (r := .error (illegalCommand e)) hok (inTable242_illegalCommand hd) h

theorem not_isDropped_cmd {s : State} (h : isDropped .cmd s = false) : s.busy = false ∧ s.err = false := by
  obtain ⟨hbusy, herr⟩ : s.busy = false ∧ (s.busy = false → s.err = false) := by simpa [isDropped] using h
  exact ⟨hbusy, herr hbusy⟩

/-- A write of STATUS keeps the invariant: what it clears, it clears together (R23, R247). -/
theorem inv_writeStatus {s : State} (hs : Inv s) (v : Word) : Inv (writeStatus v s) := by
  obtain ⟨hbusy, hno, hrec, hwf, hbuf⟩ := hs
  refine ⟨fun hb => ?_, fun he => ?_, fun he => ?_, ?_, ?_⟩
  · obtain ⟨herr, hdone⟩ := hbusy (by simpa using hb)
    simp [herr, hdone]
  · cases h2 : v[2] with
    | true => simp [h2]
    | false =>
      obtain ⟨hcode, hinfo⟩ := hno (by simpa [h2] using he)
      simp [h2, hcode, hinfo]
  · obtain ⟨herr, h2⟩ : s.err = true ∧ v[2] = false := by simpa using he
    obtain ⟨e, hrow, hcode, hinfo⟩ := hrec herr
    exact ⟨e, hrow, by simp [h2, hcode], by simp [h2, hinfo]⟩
  · simpa [memCanonical] using hwf
  · simpa [memInBuffers] using hbuf

/-- A word written to RBUF or DBUF. -/
theorem inv_setMem_word {s : State} (hs : Inv s) (a : Nat) (v : Word)
    (hin : ∀ x, a ≤ x → x < a + 4 → inBuffers x = true) : Inv (setMem (writeBytes s.mem a (lanes v)) s) := by
  obtain ⟨hbusy, hok⟩ := (inv_iff s).1 hs
  exact ⟨hbusy, recordAndBuffersOk_setMem hok a (lanes v) hin⟩

/-- Every write that the port does not drop keeps the invariant. -/
theorem inv_writeReg {s : State} (hs : Inv s) (r : Reg) (v : Word) (hd : isDropped r s = false) :
    Inv (writeReg r v s) := by
  cases r with
  | cmd =>
    obtain ⟨-, herr⟩ := not_isDropped_cmd hd
    obtain ⟨-, hok⟩ := (inv_iff s).1 hs
    exact ⟨fun _ => ⟨herr, rfl⟩, hok⟩
  | status => exact inv_writeStatus hs v
  | rbuf j =>
    refine inv_setMem_word hs _ v fun x hlo hhi => ?_
    simp only [offsetOf] at hlo hhi
    exact inBuffers_of_rbuf (by omega) (by omega)
  | dbuf j =>
    refine inv_setMem_word hs _ v fun x hlo hhi => ?_
    simp only [offsetOf] at hlo hhi
    exact inBuffers_of_dbuf (by omega) (by omega)
  | id | ien | errcode | errinfo | klen | dir | devaddr | fcnt | dlen | rlen | bfctrl => exact hs
  | key j | tag j | fdata j | descA f | descB f | etab n => exact hs

theorem inv_memRead {s : State} (hs : Inv s) (addr n : Nat) : Inv (memRead addr n s) := by
  rcases memRead_cases addr n s with ⟨r, -, h⟩ | ⟨-, h⟩
  · rw [h]
    exact hs
  · rw [h]
    exact hs

theorem inv_memWrite {s : State} (hs : Inv s) (addr n : Nat) (v : Word) : Inv (memWrite addr n v s) := by
  rcases memWrite_cases addr n v s with ⟨-, h⟩ | ⟨r, -, ⟨-, h⟩ | ⟨hd, h⟩⟩
  · rw [h]
    exact hs
  · rw [h]
    exact hs
  · rw [h]
    exact inv_writeReg hs r v hd

theorem inv_of_runEvent {s t : State} (hs : Inv s) (e : Event) (h : runEvent e s = .next t) : Inv t := by
  cases e with
  | read addr n => exact Host.Outcome.next.inj h ▸ inv_memRead hs addr n
  | write addr n v => exact Host.Outcome.next.inj h ▸ inv_memWrite hs addr n v
  | fetch addr n => exact Host.Outcome.next.inj h ▸ hs
  | engine => exact inv_of_engineStep hs h
  | reset => exact Host.Outcome.next.inj h ▸ inv_resetBlock s

/-- Settles O9: the step is the engine's or the oldest pending event, and each of them keeps the invariant. -/
theorem invariantKeptByEveryStep : Obligations.InvariantKeptByEveryStep := by
  intro s t hs h
  cases hscript : s.script with
  | nil => exact inv_of_engineStep hs (step_of_script_nil s hscript ▸ h)
  | cons e es =>
    have hrest : Inv (setScript es s) := hs
    exact inv_of_runEvent hrest e (step_of_script_cons s e es hscript ▸ h)

/-- Settles O10. -/
theorem invariantHoldsAtReset : Obligations.InvariantHoldsAtReset := inv_reset

/-! # No command other than SRST reads or writes WERR and the interrupt enables (R45, R107) -/

/-- The state with these values of WERR, DONE_IE, ERR_IE and WERR_IE. -/
def withWerrAndEnables (w a b c : Bool) (s : State) : State :=
  { s with werr := w, doneIE := a, errIE := b, werrIE := c }

/-- The outcome with its next state changed. -/
def mapNext (g : State → State) : Host.Outcome State Fault Refusal → Host.Outcome State Fault Refusal
  | .next t => .next (g t)
  | .fault r => .fault r
  | .refused r => .refused r

/-- A command ends alike on the changed state when its rule gives the changed result there: the end of a command touches
none of the four bits. -/
theorem complete_withWerrAndEnables {w a b c : Bool} {s : State} {r r' : Except CmdError State}
    (h : r' = withWerrAndEnables w a b c <$> r) :
    complete (withWerrAndEnables w a b c s) r' = mapNext (withWerrAndEnables w a b c) (complete s r) := by
  subst h
  cases r <;> rfl

theorem ecbResult_withWerrAndEnables (g : Block → Block → Block) (w a b c : Bool) (s : State) :
    ecbResult g (withWerrAndEnables w a b c s) = withWerrAndEnables w a b c <$> ecbResult g s := by
  simp only [ecbResult, map_bind, map_pure]
  rfl

/-- No command but SRST reads the four bits or changes them.  In each rule the change moves inward past the checks, which
read other fields, to the update at the end, which writes other fields. -/
theorem exec_withWerrAndEnables (w a b c : Bool) {i : Instr} (hi : i ≠ .srst) (s : State) :
    exec i (withWerrAndEnables w a b c s) = mapNext (withWerrAndEnables w a b c) (exec i s) := by
  cases i with
  | srst => exact absurd rfl hi
  | nop | bfClr => rfl
  | ecbEnc | ecbDec => exact complete_withWerrAndEnables (ecbResult_withWerrAndEnables _ w a b c s)
  | ksXor | cmac | micData | bfEncode | bfDecode =>
    apply complete_withWerrAndEnables
    simp only [map_bind, map_pure]
    rfl
  | bfSet f | bfGet f | bfTest f k | bfEchk f =>
    apply complete_withWerrAndEnables
    simp only [map_bind, map_pure]
    rfl

/-- Settles O14. -/
theorem commandsIgnoreWerrAndEnables : Obligations.CommandsIgnoreWerrAndEnables := by
  intro i s t w a b c hi h
  have hmap := exec_withWerrAndEnables w a b c hi s
  rw [h] at hmap
  exact hmap

/-! # What the registers read and what a write leaves there (10_state.md sections 2 to 6) -/

/-! ## Flag words bit by bit -/

theorem getLsbD_bitAt (b : Bool) (i k : Nat) (hk : k < 32) : (bitAt b i).getLsbD k = (decide (k = i) && b) := by
  have one : ∀ n, (if b then 1#32 else 0#32).getLsbD n = (decide (n = 0) && b) := by
    intro n
    cases b <;> simp
  rw [bitAt, BitVec.getLsbD_shiftLeft, one]
  by_cases h : k < i
  · simp [h, Nat.ne_of_lt h]
  · have : k - i = 0 ↔ k = i := by omega
    simp [h, hk, this]

/-- STATUS bit by bit (R23). -/
theorem getLsbD_statusWord (s : State) (k : Nat) (hk : k < 32) :
    (statusWord s).getLsbD k = [s.busy, s.done, s.err, s.werr, s.t].getD k false := by
  simp only [statusWord, BitVec.getLsbD_or, getLsbD_bitAt _ _ _ hk]
  match k with
  | 0 | 1 | 2 | 3 | 4 => simp
  | n + 5 => simp

/-- IEN bit by bit (R24). -/
theorem getLsbD_ienWord (s : State) (k : Nat) (hk : k < 32) :
    (ienWord s).getLsbD k = [false, s.doneIE, s.errIE, s.werrIE].getD k false := by
  simp only [ienWord, BitVec.getLsbD_or, getLsbD_bitAt _ _ _ hk]
  match k with
  | 0 | 1 | 2 | 3 => simp
  | n + 4 => simp

/-- BFCTRL bit by bit (R38). -/
theorem getLsbD_bfctrlWord (s : State) (k : Nat) (hk : k < 32) :
    (readReg s .bfctrl).getLsbD k = [s.le, s.strict].getD k false := by
  simp only [readReg, BitVec.getLsbD_or, getLsbD_bitAt _ _ _ hk]
  match k with
  | 0 | 1 => simp
  | n + 2 => simp

/-! ## Reads -/

/-- A read at a register's address answers its value and changes nothing else (R71). -/
theorem memRead_offsetOf (s : State) (r : Reg) :
    memRead (Config.base + offsetOf r) 4 s = setAnswer (.data (readReg s r)) s := by
  simp [memRead]

/-- Settles O19. -/
theorem readsReturnTheRegisterAndChangeNothing : Obligations.ReadsReturnTheRegisterAndChangeNothing := by
  intro s
  refine ⟨memRead_offsetOf s, getLsbD_statusWord s, getLsbD_ienWord s, getLsbD_bfctrlWord s, rfl, rfl, rfl,
    ?errcode, ?errinfo, ?klen, ?dir, ?fcnt, ?dlen, ?rlen,
    fun f => descAWord_toNat s.desc[f], fun f => descBWord_toNat s.desc[f], valueWord_toNat s.fdata, fun _ => rfl⟩
  all_goals exact BitVec.toNat_setWidth_of_le (by decide)

/-- No register's value depends on the key: the KEY words read as 0 (R29, R76). -/
theorem readReg_withKey (s : State) (k : Block) (r : Reg) : readReg { s with key := k } r = readReg s r := by
  cases r <;> rfl

/-- Settles O23. -/
theorem keyIsNeverReadable : Obligations.KeyIsNeverReadable := by
  refine ⟨fun s j => memRead_offsetOf s (.key j), fun s k addr n => ?_⟩
  unfold memRead
  cases accessedReg addr n with
  | none => rfl
  | some r => simp [readReg_withKey]

/-! ## Writes -/

/-- A write to a register's address is dropped or has the register's own effect (R72, R77). -/
theorem memWrite_offsetOf (s : State) (r : Reg) (v : Word) :
    memWrite (Config.base + offsetOf r) 4 v s =
      setAnswer .written (if isDropped r s then setWerr s else writeReg r v s) := by
  simp [memWrite]

/-- On a block that is not busy only a write of CMD is dropped, and only with an error on record (R77). -/
theorem isDropped_idle {s : State} (hb : s.busy = false) (r : Reg) :
    isDropped r s = (decide (r = .cmd) && s.err) := by
  simp [isDropped, hb]

theorem memWrite_idle {s : State} (hb : s.busy = false) {r : Reg} (hr : r ≠ .cmd) (v : Word) :
    memWrite (Config.base + offsetOf r) 4 v s = setAnswer .written (writeReg r v s) := by
  simp [memWrite_offsetOf, isDropped_idle hb, hr]

/-- The port's answer is no register. -/
theorem readReg_setAnswer (a : Answer) (s : State) (r : Reg) : readReg (setAnswer a s) r = readReg s r := by
  cases r <;> rfl

/-- Settles O24: a write of STATUS is never dropped. -/
theorem statusWriteOneToClear : Obligations.StatusWriteOneToClear := by
  intro s v
  have haccepted : isDropped .status s = false := by simp [isDropped]
  have heffect : memWrite (Config.base + 0x008) 4 v s = setAnswer .written (writeStatus v s) := by
    refine (memWrite_offsetOf s .status v).trans ?_
    rw [haccepted]
    rfl
  rw [heffect]
  cases h : v[2] <;> simp [writeStatus, clearError, setAnswer, h]

/-! ## The words of the wide registers after a write -/

theorem toNat_lane (v : Word) (i : Nat) : (lane v i).toNat = v.toNat / 2 ^ (8 * i) % 2 ^ 8 := by
  simp [lane, Nat.shiftRight_eq_div_pow]

theorem toNat_wordOfLanes (b0 b1 b2 b3 : Byte) :
    (wordOfLanes b0 b1 b2 b3).toNat = b0.toNat + 2 ^ 8 * b1.toNat + 2 ^ 16 * b2.toNat + 2 ^ 24 * b3.toNat := by
  have := b0.isLt; have := b1.isLt; have := b2.isLt; have := b3.isLt
  have hor : (wordOfLanes b0 b1 b2 b3).toNat =
      b3.toNat <<< 24 ||| (b2.toNat <<< 16 ||| (b1.toNat <<< 8 ||| b0.toNat)) := by
    simp (disch := omega) [wordOfLanes, Nat.shiftLeft_eq, Nat.mod_eq_of_lt]
    ac_rfl
  rw [hor, shiftLeft_or_eq_add b1.toNat _ 8 (by omega), shiftLeft_or_eq_add b2.toNat _ 16 (by omega),
    shiftLeft_or_eq_add b3.toNat _ 24 (by omega)]

/-- A word is made of its lanes (R74). -/
theorem wordOfLanes_lane (v : Word) : wordOfLanes (lane v 0) (lane v 1) (lane v 2) (lane v 3) = v := by
  apply BitVec.eq_of_toNat_eq
  simp only [toNat_wordOfLanes, toNat_lane]
  omega

@[simp] theorem lanes_length (v : Word) : (lanes v).length = 4 := rfl

/-- A word of the buffers reads back (R74). -/
theorem memWord_writeBytes_same {m : Memory} (hm : Memory.wf m = true) (a : Nat) (v : Word) :
    memWord (writeBytes m a (lanes v)) a = v := by
  have byte (k : Nat) (hk : k < 4) : readByte (writeBytes m a (lanes v)) (a + k) = (lanes v)[k] :=
    readByte_writeBytes_inside (lanes v) m a k hm hk
  have byte0 : readByte (writeBytes m a (lanes v)) a = lane v 0 := byte 0 (by omega)
  rw [memWord, byte0, byte 1 (by omega), byte 2 (by omega), byte 3 (by omega)]
  exact wordOfLanes_lane v

/-- A word of the buffers keeps its value when another word is written (R44). -/
theorem memWord_writeBytes_other (m : Memory) (v : Word) {a x : Nat} (h : x + 4 ≤ a ∨ a + 4 ≤ x) :
    memWord (writeBytes m a (lanes v)) x = memWord m x := by
  have byte (k : Nat) (hk : k < 4) : readByte (writeBytes m a (lanes v)) (x + k) = readByte m (x + k) :=
    readByte_writeBytes_outside (lanes v) m a (x + k) (by simp; omega)
  have byte0 : readByte (writeBytes m a (lanes v)) x = readByte m x := byte 0 (by omega)
  rw [memWord, byte0, byte 1 (by omega), byte 2 (by omega), byte 3 (by omega), memWord]

/-- Bit m of a 128-bit number after a write of its word j (R39). -/
theorem getLsbD_setValueWord (x : Value) (j : Fin 4) (v : Word) (m : Nat) (hm : m < 128) :
    (setValueWord x j v).getLsbD m =
      if 32 * j.val ≤ m ∧ m < 32 * j.val + 32 then v.getLsbD (m - 32 * j.val) else x.getLsbD m := by
  have mask (n : Nat) (hn : n < 128) : (0xFFFFFFFF#128).getLsbD n = decide (n < 32) := by
    rw [show (0xFFFFFFFF#128) = BitVec.ofNat 128 (2 ^ 32 - 1) from rfl, BitVec.getLsbD_ofNat,
      Nat.testBit_two_pow_sub_one]
    simp [hn]
  simp only [setValueWord, BitVec.getLsbD_or, BitVec.getLsbD_and, BitVec.getLsbD_not, BitVec.getLsbD_shiftLeft,
    BitVec.getLsbD_setWidth, hm, mask (m - 32 * j.val) (by omega)]
  by_cases hlo : m < 32 * j.val
  · have : ¬32 * j.val ≤ m := by omega
    simp [hlo, this]
  · by_cases hhi : m < 32 * j.val + 32
    · have h1 : 32 * j.val ≤ m := by omega
      have h2 : m - 32 * j.val < 32 := by omega
      have h3 : m - 32 * j.val < 128 := by omega
      simp [hlo, h1, h2, h3, hhi]
    · have h2 : ¬m - 32 * j.val < 32 := by omega
      simp [hlo, hhi, h2, BitVec.getLsbD_of_ge v (m - 32 * j.val) (by omega)]

theorem valueWord_setValueWord_same (x : Value) (j : Fin 4) (v : Word) : valueWord (setValueWord x j v) j = v := by
  apply BitVec.eq_of_getLsbD_eq
  intro i hi
  simp [valueWord, hi, getLsbD_setValueWord x j v (32 * j.val + i) (by omega)]

theorem valueWord_setValueWord_other (x : Value) {j k : Fin 4} (h : k ≠ j) (v : Word) :
    valueWord (setValueWord x j v) k = valueWord x k := by
  apply BitVec.eq_of_getLsbD_eq
  intro i hi
  have hout : ¬(32 * j.val ≤ 32 * k.val + i ∧ 32 * k.val + i < 32 * j.val + 32) := by omega
  simp only [valueWord, BitVec.getLsbD_extractLsb', getLsbD_setValueWord x j v (32 * k.val + i) (by omega), hout,
    if_false]

/-! ## Masks: which bits of a written word read back -/

/-- A register of n bits reads back what was written without the bits above. -/
theorem setWidth_setWidth_eq_and (v : Word) (n : Nat) :
    (v.setWidth n).setWidth 32 = v &&& BitVec.ofNat 32 (2 ^ n - 1) := by
  apply BitVec.eq_of_getLsbD_eq
  intro i hi
  simp only [BitVec.getLsbD_and, BitVec.getLsbD_setWidth, BitVec.getLsbD_ofNat, Nat.testBit_two_pow_sub_one, hi,
    decide_true, Bool.true_and, Bool.and_comm]

/-- A field of a word, taken out and put back at its place: the word with the other bits cleared. -/
theorem fieldInPlace_eq_and (v : Word) (a n : Nat) :
    (v.extractLsb' a n).setWidth 32 <<< a = v &&& BitVec.ofNat 32 ((2 ^ n - 1) <<< a) := by
  apply BitVec.eq_of_getLsbD_eq
  intro i hi
  simp only [BitVec.getLsbD_shiftLeft, BitVec.getLsbD_setWidth, BitVec.getLsbD_extractLsb', BitVec.getLsbD_and,
    BitVec.getLsbD_ofNat, Nat.testBit_shiftLeft, Nat.testBit_two_pow_sub_one, hi]
  by_cases ha : a ≤ i
  · have hlt : i - a < 32 := by omega
    have hplace : a + (i - a) = i := by omega
    simp [ha, hlt, hplace, Bool.and_comm]
  · simp [ha, Nat.not_le.1 ha]

/-- DESCA after a write: LO, HI and KIND of the word at their places (R40). -/
theorem descAWord_setDescA (v : Word) (d : Desc) : descAWord (setDescA v d) = v &&& 0x00077F7F :=
  calc descAWord (setDescA v d)
    _ = (v.extractLsb' 16 3).setWidth 32 <<< 16 ||| (v.extractLsb' 8 7).setWidth 32 <<< 8 |||
          (v.extractLsb' 0 7).setWidth 32 <<< 0 := by rw [BitVec.shiftLeft_zero]; rfl
    _ = v &&& (0x00070000 ||| 0x00007F00 ||| 0x0000007F) := by
      rw [fieldInPlace_eq_and, fieldInPlace_eq_and, fieldInPlace_eq_and, BitVec.and_or_distrib_left,
        BitVec.and_or_distrib_left]
      rfl

/-- DESCB after a write: SCALE, EBASE and ECNT of the word at their places (R40). -/
theorem descBWord_setDescB (v : Word) (d : Desc) : descBWord (setDescB v d) = v &&& 0x1FFFFFFF :=
  calc descBWord (setDescB v d)
    _ = (v.extractLsb' 22 7).setWidth 32 <<< 22 ||| (v.extractLsb' 16 6).setWidth 32 <<< 16 |||
          (v.extractLsb' 0 16).setWidth 32 <<< 0 := by rw [BitVec.shiftLeft_zero]; rfl
    _ = v &&& (0x1FC00000 ||| 0x003F0000 ||| 0x0000FFFF) := by
      rw [fieldInPlace_eq_and, fieldInPlace_eq_and, fieldInPlace_eq_and, BitVec.and_or_distrib_left,
        BitVec.and_or_distrib_left]
      rfl
/-- A flag taken from a word at its own place: the word with the other bits cleared. -/
theorem bitAt_getElem_eq_and (v : Word) (i : Nat) (hi : i < 32) :
    bitAt v[i] i = v &&& BitVec.ofNat 32 (2 ^ i) := by
  apply BitVec.eq_of_getLsbD_eq
  intro k hk
  simp only [getLsbD_bitAt _ _ _ hk, BitVec.getLsbD_and, BitVec.getLsbD_ofNat, Nat.testBit_two_pow, hk]
  by_cases h : k = i
  · subst h
    simp [BitVec.getLsbD_eq_getElem hk]
  · simp [h, Ne.symm h]

/-- IEN after a write (R24). -/
theorem ienWord_writeIen (v : Word) (s : State) : ienWord (writeIen v s) = v &&& 0x0000000E :=
  calc ienWord (writeIen v s)
    _ = bitAt v[1] 1 ||| bitAt v[2] 2 ||| bitAt v[3] 3 := rfl
    _ = v &&& (0x00000002 ||| 0x00000004 ||| 0x00000008) := by
      rw [bitAt_getElem_eq_and, bitAt_getElem_eq_and, bitAt_getElem_eq_and, BitVec.and_or_distrib_left,
        BitVec.and_or_distrib_left]
      rfl

/-- STATUS after a write: bits 1 to 3 are cleared where the word has a one (R23). -/
theorem statusWord_writeStatus (v : Word) (s : State) :
    statusWord (writeStatus v s) = statusWord s &&& ~~~(v &&& 0x0000000E) := by
  apply BitVec.eq_of_getLsbD_eq
  intro k hk
  rw [getLsbD_statusWord _ k hk, BitVec.getLsbD_and, getLsbD_statusWord _ k hk, BitVec.getLsbD_not,
    BitVec.getLsbD_and]
  match k with
  | 0 | 1 | 2 | 3 | 4 => simp
  | n + 5 => simp

/-! ## A register after a write to it -/

theorem readReg_writeReg_bfctrl (v : Word) (s : State) :
    readReg (writeReg .bfctrl v s) .bfctrl = v &&& 0x00000003 :=
  calc readReg (writeReg .bfctrl v s) .bfctrl
    _ = bitAt v[0] 0 ||| bitAt v[1] 1 := rfl
    _ = v &&& (0x00000001 ||| 0x00000002) := by
      rw [bitAt_getElem_eq_and, bitAt_getElem_eq_and, BitVec.and_or_distrib_left]
      rfl

theorem readReg_writeReg_descA (f : Fin 16) (v : Word) (s : State) :
    readReg (writeReg (.descA f) v s) (.descA f) = v &&& 0x00077F7F := by
  simp [readReg, writeReg, descAWord_setDescA]

theorem readReg_writeReg_descB (f : Fin 16) (v : Word) (s : State) :
    readReg (writeReg (.descB f) v s) (.descB f) = v &&& 0x1FFFFFFF := by
  simp [readReg, writeReg, descBWord_setDescB]

theorem readReg_writeReg_etab (n : Fin 64) (v : Word) (s : State) :
    readReg (writeReg (.etab n) v s) (.etab n) = v := by
  simp [readReg, writeReg]

/-- What the host reads after its own write to an idle block: the value that the register's effect leaves. -/
theorem answer_of_read_after_write {s : State} (hb : s.busy = false) {r : Reg} (hr : r ≠ .cmd) (v : Word) :
    (memRead (Config.base + offsetOf r) 4 (memWrite (Config.base + offsetOf r) 4 v s)).portAnswer =
      .data (readReg (writeReg r v s) r) := by
  rw [memRead_offsetOf, memWrite_idle hb hr, readReg_setAnswer]
  rfl

/-- What the host reads from CMD after it wrote CMD: the word, or the old one when the write was dropped (R77, R104). -/
theorem answer_of_cmd_after_write {s : State} (hb : s.busy = false) (v : Word) :
    (memRead (Config.base + offsetOf .cmd) 4 (memWrite (Config.base + offsetOf .cmd) 4 v s)).portAnswer =
      .data (if s.err then s.cmdr else v) := by
  rw [memRead_offsetOf, memWrite_offsetOf, readReg_setAnswer, isDropped_idle hb]
  cases s.err <;> rfl

/-- Settles O21. -/
theorem writtenRegistersReadBackMasked : Obligations.WrittenRegistersReadBackMasked := by
  intro s v hb hm after
  have reads (r : Reg) (hr : r ≠ .cmd) {w : Word} (h : readReg (writeReg r v s) r = w) : after r = .data w :=
    h ▸ answer_of_read_after_write hb hr v
  have cmd : after .cmd = .data (if s.err then s.cmdr else v) := answer_of_cmd_after_write hb v
  exact ⟨
    reads .ien nofun (ienWord_writeIen v s),
    reads .klen nofun (setWidth_setWidth_eq_and v 8),
    reads .dir nofun (setWidth_setWidth_eq_and v 1),
    reads .devaddr nofun rfl,
    reads .fcnt nofun (setWidth_setWidth_eq_and v 16),
    reads .dlen nofun (setWidth_setWidth_eq_and v 16),
    reads .rlen nofun (setWidth_setWidth_eq_and v 8),
    reads .bfctrl nofun (readReg_writeReg_bfctrl v s),
    fun j => reads (.key j) nofun rfl,
    fun j => reads (.tag j) nofun rfl,
    fun j => reads (.fdata j) nofun (valueWord_setValueWord_same s.fdata j v),
    fun j => reads (.rbuf j) nofun (memWord_writeBytes_same hm _ v),
    reads .id nofun rfl,
    reads .errcode nofun rfl,
    reads .errinfo nofun rfl,
    reads .status nofun (statusWord_writeStatus v s),
    fun he => by simpa [he] using cmd,
    fun he => by simpa [he] using cmd,
    fun f => reads (.descA f) nofun (readReg_writeReg_descA f v s),
    fun f => reads (.descB f) nofun (readReg_writeReg_descB f v s),
    fun n => reads (.etab n) nofun (readReg_writeReg_etab n v s),
    fun j => reads (.dbuf j) nofun (memWord_writeBytes_same hm _ v)⟩

/-! ## A register after a write to another one (R44) -/

/-- The word of a buffer register keeps its value when the word of another one is written. -/
theorem memWord_writeBytes_of_ne (s : State) (v : Word) {r q : Reg} (hq : q ≠ r) :
    memWord (writeBytes s.mem (offsetOf r) (lanes v)) (offsetOf q) = memWord s.mem (offsetOf q) := by
  have hne : offsetOf q ≠ offsetOf r := fun h => hq (offsetOf_injective q r h)
  have := offsetOf_aligned q
  have := offsetOf_aligned r
  exact memWord_writeBytes_other s.mem v (by omega)

/-- What is read from slot g of the descriptor table is kept when slot f is written, if g is another slot or if the new
descriptor reads as the old one did. -/
theorem desc_reading_kept (read : Desc → Word) {desc : Vector Desc 16} {f g : Fin 16} {d : Desc}
    (h : f ≠ g ∨ read d = read desc[f]) : read (desc.set f.val d f.isLt)[g] = read desc[g] := by
  by_cases hfg : f = g
  · subst hfg
    obtain hne | hread := h
    · exact absurd rfl hne
    · simpa using hread
  · exact congrArg read (Vector.getElem_set_ne f.isLt g.isLt (Fin.val_ne_of_ne hfg))

/-- The registers are separate pieces of state: a write to one, other than CMD and STATUS, leaves what every other one
reads. -/
theorem readReg_writeReg_other (s : State) (v : Word) {r q : Reg} (hc : r ≠ .cmd) (hs : r ≠ .status) (hq : q ≠ r) :
    readReg (writeReg r v s) q = readReg s q := by
  cases r with
  | cmd => exact absurd rfl hc
  | status => exact absurd rfl hs
  | id | errcode | errinfo | tag j => rfl
  | ien => cases q with | ien => exact absurd rfl hq | _ => rfl
  | klen => cases q with | klen => exact absurd rfl hq | _ => rfl
  | dir => cases q with | dir => exact absurd rfl hq | _ => rfl
  | devaddr => cases q with | devaddr => exact absurd rfl hq | _ => rfl
  | fcnt => cases q with | fcnt => exact absurd rfl hq | _ => rfl
  | dlen => cases q with | dlen => exact absurd rfl hq | _ => rfl
  | rlen => cases q with | rlen => exact absurd rfl hq | _ => rfl
  | bfctrl => cases q with | bfctrl => exact absurd rfl hq | _ => rfl
  | key j => exact readReg_withKey s (setBlockWord s.key j v) q
  | fdata j =>
    cases q with
    | fdata k => exact valueWord_setValueWord_other s.fdata (fun h => hq (congrArg Reg.fdata h)) v
    | _ => rfl
  | rbuf j | dbuf j =>
    cases q with
    | rbuf k | dbuf k => exact memWord_writeBytes_of_ne s v hq
    | _ => rfl
  | etab n =>
    cases q with
    | etab m =>
      have hne : n ≠ m := fun h => hq (congrArg Reg.etab h.symm)
      exact Vector.getElem_set_ne n.isLt m.isLt (Fin.val_ne_of_ne hne)
    | _ => rfl
  | descA f =>
    cases q with
    | descA g => exact desc_reading_kept descAWord (.inl fun h => hq (congrArg Reg.descA h.symm))
    | descB g => exact desc_reading_kept descBWord (.inr rfl)
    | _ => rfl
  | descB f =>
    cases q with
    | descA g => exact desc_reading_kept descAWord (.inr rfl)
    | descB g => exact desc_reading_kept descBWord (.inl fun h => hq (congrArg Reg.descB h.symm))
    | _ => rfl

/-- No register is a field value (R42). -/
theorem writeReg_fv (r : Reg) (v : Word) (s : State) : (writeReg r v s).fv = s.fv := by
  cases r with
  | status => exact writeStatus_fv v s
  | _ => rfl

/-- Only the KEY words reach the key (R29). -/
theorem writeReg_key_of_ne {r : Reg} (hr : ∀ j, r ≠ .key j) (v : Word) (s : State) : (writeReg r v s).key = s.key := by
  cases r with
  | key j => exact absurd rfl (hr j)
  | status => exact writeStatus_key v s
  | _ => rfl

/-- Settles O22. -/
theorem noTwoRegistersAlias : Obligations.NoTwoRegistersAlias := by
  intro s r v
  refine ⟨fun q hb hc hs hq => ?_, ?_, fun hr => ?_⟩
  · rw [memWrite_idle hb hc, readReg_setAnswer, readReg_writeReg_other s v hc hs hq]
  · rw [memWrite_offsetOf, setAnswer_fv]
    split
    · rfl
    · exact writeReg_fv r v s
  · rw [memWrite_offsetOf, setAnswer_key]
    split
    · rfl
    · exact writeReg_key_of_ne hr v s

/-! ## Reset -/

/-- Settles O28. -/
theorem resetValues : Obligations.ResetValues := by
  refine ⟨rfl, rfl, rfl, rfl, rfl, rfl, rfl, rfl, rfl, rfl, rfl, rfl, ?key, rfl, rfl, rfl, rfl, ?tag, rfl, rfl, rfl,
    rfl, ?desc, ?etab, ?fv, fun _ => rfl, rfl, rfl⟩
  all_goals
    intro n
    simp [State.reset, Desc.zero]

end Sys2Proof.StateFamily

namespace Sys2Proof.MemoryFamily

open Sys2Proof.Machine Sys2Proof.Safety Sys2Proof.StateFamily

/-! # A host access while a command is in progress (20_memory.md R77, R79)

STATUS and IEN alone take a write then, and a write of STATUS finds no error to clear. -/

/-- R77's two cases, as the statements write them. -/
theorem isDropped_iff (r : Reg) (s : State) :
    isDropped r s = true ↔
      (s.busy = true ∧ r ≠ .status ∧ r ≠ .ien) ∨ (r = .cmd ∧ s.busy = false ∧ s.err = true) := by
  simp [isDropped, and_assoc]

/-- While BUSY = 1 only STATUS and IEN accept a write (R77 (a)). -/
theorem eq_status_or_ien_of_busy {r : Reg} {s : State} (hb : s.busy = true) (hd : isDropped r s = false) :
    r = .status ∨ r = .ien := by
  by_contra h
  obtain ⟨hstatus, hien⟩ := not_or.1 h
  have hdrop : isDropped r s = true := (isDropped_iff r s).2 (.inl ⟨hb, hstatus, hien⟩)
  exact Bool.noConfusion (hdrop.symm.trans hd)

/-- With no error on record, error return changes nothing (R247). -/
theorem clearError_of_noRecord {s : State} (he : s.err = false) (hc : s.errcode = 0) (hi : s.errinfo = 0) :
    clearError s = s := by
  rw [clearError, ← he, ← hc, ← hi]

theorem writeStatus_of_noRecord {s : State} (he : s.err = false) (hc : s.errcode = 0) (hi : s.errinfo = 0) (v : Word) :
    writeStatus v s = { s with done := s.done && !v[1], werr := s.werr && !v[3] } := by
  simp only [writeStatus, clearError_of_noRecord he hc hi, ite_self]

/-- What R77 and R79 let change while a command is in progress: DONE, WERR, the interrupt enables, and the model's own
answer of the port. -/
def AgreeButFlags (s t : State) : Prop :=
  ∃ (d w a b c : Bool) (ans : Answer),
    t = { s with done := d, werr := w, doneIE := a, errIE := b, werrIE := c, portAnswer := ans }

theorem agreeButFlags_setAnswer (a : Answer) (s : State) : AgreeButFlags s (setAnswer a s) :=
  ⟨s.done, s.werr, s.doneIE, s.errIE, s.werrIE, a, rfl⟩

theorem agreeButFlags_memRead (addr n : Nat) (s : State) : AgreeButFlags s (memRead addr n s) := by
  obtain ⟨r, -, h⟩ | ⟨-, h⟩ := memRead_cases addr n s
  · exact h ▸ agreeButFlags_setAnswer _ s
  · exact h ▸ agreeButFlags_setAnswer _ s

theorem agreeButFlags_memWrite {s : State} (hb : s.busy = true) (he : s.err = false) (hc : s.errcode = 0)
    (hi : s.errinfo = 0) (addr n : Nat) (v : Word) : AgreeButFlags s (memWrite addr n v s) := by
  obtain ⟨-, h⟩ | ⟨r, -, ⟨-, h⟩ | ⟨hd, h⟩⟩ := memWrite_cases addr n v s
  case inl => exact h ▸ agreeButFlags_setAnswer _ s
  case inr.inl => exact h ▸ ⟨s.done, true, s.doneIE, s.errIE, s.werrIE, .written, rfl⟩
  case inr.inr =>
    obtain rfl | rfl := eq_status_or_ien_of_busy hb hd
    · rw [h, writeReg, writeStatus_of_noRecord he hc hi]
      exact ⟨_, _, s.doneIE, s.errIE, s.werrIE, .written, rfl⟩
    · exact h ▸ ⟨s.done, s.werr, v[1], v[2], v[3], .written, rfl⟩

/-- An event other than the engine's turn and a reset is a read, a write or a fetch. -/
theorem agreeButFlags_of_hostEvent {s : State} {e : Event} (hb : s.busy = true) (he : s.err = false)
    (hc : s.errcode = 0) (hi : s.errinfo = 0) (hengine : e ≠ .engine) (hreset : e ≠ .reset) :
    ∃ t, runEvent e s = .next t ∧ AgreeButFlags s t := by
  cases e with
  | read addr n => exact ⟨_, rfl, agreeButFlags_memRead addr n s⟩
  | write addr n v => exact ⟨_, rfl, agreeButFlags_memWrite hb he hc hi addr n v⟩
  | fetch addr n => exact ⟨_, rfl, agreeButFlags_setAnswer .busError s⟩
  | engine => exact absurd rfl hengine
  | reset => exact absurd rfl hreset

/-- Settles O13. -/
theorem busyIntervalFreezesTheState : Obligations.BusyIntervalFreezesTheState := by
  intro s e es hb he hc hi hscript hengine hreset
  obtain ⟨t, hrun, d, w, a, b, c, ans, rfl⟩ :=
    agreeButFlags_of_hostEvent (s := setScript es s) hb he hc hi hengine hreset
  exact ⟨d, w, a, b, c, ans, (step_of_script_cons s e es hscript).trans hrun⟩

/-- Settles O16. -/
theorem droppedWritesOnlySetWerr : Obligations.DroppedWritesOnlySetWerr := by
  intro s r v caseA caseB
  have hdrop : isDropped r s = true ↔ caseA ∨ caseB := isDropped_iff r s
  rw [memWrite_offsetOf]
  refine ⟨fun h => ?_, fun h => ?_⟩
  · rw [if_pos (hdrop.2 h)]
    rfl
  · rw [if_neg (hdrop.not.2 h)]
    rfl

/-! # The address map (20_memory.md R73, R75, table T78) -/

theorem memRead_of_unreached {addr n : Nat} (h : accessedReg addr n = none) (s : State) :
    memRead addr n s = { s with portAnswer := .busError } := by
  simp only [memRead, h]
  rfl

theorem memWrite_of_unreached {addr n : Nat} (h : accessedReg addr n = none) (v : Word) (s : State) :
    memWrite addr n v s = { s with portAnswer := .busError } := by
  simp only [memWrite, h]
  rfl

/-- Settles O18: such an access reaches no register, and a fetch never does. -/
theorem otherWidthsAndAlignmentsAnswerBusError : Obligations.OtherWidthsAndAlignmentsAnswerBusError := by
  intro s addr n v es
  refine ⟨fun h => ?_, fun hscript => step_of_script_cons s (.fetch addr n) es hscript⟩
  have hnone : accessedReg addr n = none := accessedReg_eq_none addr n h
  exact ⟨memRead_of_unreached hnone s, memWrite_of_unreached hnone v s⟩

/-- The seven unmapped ranges of R75. -/
abbrev UnmappedRange (off : Nat) : Prop :=
  (0x018 ≤ off ∧ off ≤ 0x01C) ∨ off = 0x03C ∨ (0x070 ≤ off ∧ off ≤ 0x07C) ∨ (0x090 ≤ off ∧ off ≤ 0x0FC) ∨
    (0x180 ≤ off ∧ off ≤ 0x1FC) ∨ (0x300 ≤ off ∧ off ≤ 0x3FC) ∨ (0x500 ≤ off ∧ off ≤ 0xFFC)

/-- No register stands in an unmapped range. -/
theorem offsetOf_not_unmapped (r : Reg) : ¬UnmappedRange (offsetOf r) := by
  cases r <;> simp only [offsetOf] <;> omega

theorem accessedReg_of_unmapped {off : Nat} (h : UnmappedRange off) : accessedReg (Config.base + off) 4 = none := by
  refine Option.eq_none_iff_forall_ne_some.2 fun r hr => ?_
  obtain ⟨-, haddr⟩ := (accessedReg_eq_some _ _ r).1 hr
  have hoff : off = offsetOf r := Nat.add_left_cancel haddr
  exact offsetOf_not_unmapped r (hoff ▸ h)

/-- Below 0x040 the registers stand alone. -/
theorem exists_single_reg {off : Nat} (h4 : off % 4 = 0) (h : ¬UnmappedRange off) (hlt : off < 0x040) :
    ∃ r, offsetOf r = off := by
  obtain ⟨k, rfl⟩ : ∃ k, off = 4 * k := ⟨off / 4, by omega⟩
  match k with
  | 0 => exact ⟨.id, rfl⟩
  | 1 => exact ⟨.cmd, rfl⟩
  | 2 => exact ⟨.status, rfl⟩
  | 3 => exact ⟨.ien, rfl⟩
  | 4 => exact ⟨.errcode, rfl⟩
  | 5 => exact ⟨.errinfo, rfl⟩
  | 6 | 7 | 15 => omega
  | 8 => exact ⟨.klen, rfl⟩
  | 9 => exact ⟨.dir, rfl⟩
  | 10 => exact ⟨.devaddr, rfl⟩
  | 11 => exact ⟨.fcnt, rfl⟩
  | 12 => exact ⟨.dlen, rfl⟩
  | 13 => exact ⟨.rlen, rfl⟩
  | 14 => exact ⟨.bfctrl, rfl⟩
  | k + 16 => omega

/-- A register array places an entry at every multiple of its stride inside its range. -/
theorem exists_arrayReg {size : Nat} {mk : Fin size → Reg} (start stride : Nat) {off : Nat}
    (hmk : ∀ j, offsetOf (mk j) = start + stride * j.val) (hlo : start ≤ off) (hhi : off < start + stride * size)
    (hdvd : stride ∣ off - start) : ∃ r, offsetOf r = off := by
  obtain ⟨k, hk⟩ := hdvd
  have hlt : k < size := Nat.lt_of_mul_lt_mul_left (a := stride) (by omega)
  exact ⟨mk ⟨k, hlt⟩, by rw [hmk]; simpa only [← hk] using Nat.add_sub_of_le hlo⟩

/-- Every other multiple of 4 of the window is the offset of a register (T78). -/
theorem exists_reg_of_mapped {off : Nat} (hw : off < 4096) (h4 : off % 4 = 0) (h : ¬UnmappedRange off) :
    ∃ r, offsetOf r = off := by
  by_cases h040 : off < 0x040
  · exact exists_single_reg h4 h h040
  by_cases h050 : off < 0x050
  · exact exists_arrayReg (mk := .key) 0x040 4 (fun _ => rfl) (by omega) (by omega) (by omega)
  by_cases h060 : off < 0x060
  · exact exists_arrayReg (mk := .tag) 0x050 4 (fun _ => rfl) (by omega) (by omega) (by omega)
  by_cases h080 : off < 0x080
  · exact exists_arrayReg (mk := .fdata) 0x060 4 (fun _ => rfl) (by omega) (by omega) (by omega)
  by_cases h100 : off < 0x100
  · exact exists_arrayReg (mk := .rbuf) 0x080 4 (fun _ => rfl) (by omega) (by omega) (by omega)
  by_cases h200 : off < 0x200
  · obtain h8 | h8 : off % 8 = 0 ∨ off % 8 = 4 := by omega
    · exact exists_arrayReg (mk := .descA) 0x100 8 (fun _ => rfl) (by omega) (by omega) (by omega)
    · exact exists_arrayReg (mk := .descB) 0x104 8 (fun _ => rfl) (by omega) (by omega) (by omega)
  by_cases h400 : off < 0x400
  · exact exists_arrayReg (mk := .etab) 0x200 4 (fun _ => rfl) (by omega) (by omega) (by omega)
  · exact exists_arrayReg (mk := .dbuf) 0x400 4 (fun _ => rfl) (by omega) (by omega) (by omega)

/-- Settles O17. -/
theorem unmappedOffsetsAnswerBusError : Obligations.UnmappedOffsetsAnswerBusError := by
  intro s reaches
  have at_offset (r : Reg) : reaches (offsetOf r) r := ⟨rfl, memRead_offsetOf s r⟩
  refine ⟨?map, at_offset .id, at_offset .cmd, at_offset .status, at_offset .ien, at_offset .errcode,
    at_offset .errinfo, at_offset .klen, at_offset .dir, at_offset .devaddr, at_offset .fcnt, at_offset .dlen,
    at_offset .rlen, at_offset .bfctrl,
    fun j => ⟨at_offset (.key j), at_offset (.tag j), at_offset (.fdata j), at_offset (.rbuf j)⟩,
    fun f => ⟨at_offset (.descA f), at_offset (.descB f)⟩, fun n => at_offset (.etab n), fun j => at_offset (.dbuf j)⟩
  intro off v hw h4 unmapped
  refine ⟨fun h => ?_, fun h => ?_⟩
  · have hnone : accessedReg (Config.base + off) 4 = none := accessedReg_of_unmapped h
    exact ⟨memRead_of_unreached hnone s, memWrite_of_unreached hnone v s⟩
  · obtain ⟨r, rfl⟩ := exists_reg_of_mapped hw h4 h
    exact ⟨r, at_offset r⟩

/-! # Byte lanes (20_memory.md R74) -/

theorem lane_wordOfLanes (b0 b1 b2 b3 : Byte) (i : Fin 4) :
    lane (wordOfLanes b0 b1 b2 b3) i.val = [b0, b1, b2, b3][i] := by
  have := b0.isLt; have := b1.isLt; have := b2.isLt; have := b3.isLt
  apply BitVec.eq_of_toNat_eq
  rw [toNat_lane, toNat_wordOfLanes]
  match i with
  | 0 | 1 | 2 | 3 => simp; omega

theorem getElem_lanes (v : Word) (i : Fin 4) : (lanes v)[i] = lane v i.val := by
  match i with
  | 0 | 1 | 2 | 3 => rfl

theorem lane_memWord (m : Memory) (a : Nat) (i : Fin 4) : lane (memWord m a) i.val = readByte m (a + i.val) := by
  rw [memWord, lane_wordOfLanes]
  match i with
  | 0 | 1 | 2 | 3 => rfl

theorem lane_blockWord (x : Block) (j i : Fin 4) :
    lane (blockWord x j) i.val = x[4 * j.val + i.val]'(by omega) := by
  rw [blockWord, lane_wordOfLanes]
  match i with
  | 0 | 1 | 2 | 3 => rfl

/-- Byte n of a 16-byte array is in lane n mod 4 of its word n div 4. -/
theorem lane_blockWord_of_div {x : Block} {j : Fin 4} {n : Fin 16} (h : n.val / 4 = j.val) :
    lane (blockWord x j) (n.val % 4) = x[n] := by
  have hn : 4 * j.val + n.val % 4 = n.val := by omega
  have hlane := lane_blockWord x j ⟨n.val % 4, by omega⟩
  simpa only [hn, Fin.getElem_fin] using hlane

theorem readByte_writeBytes_lane {m : Memory} (hm : Memory.wf m = true) (a : Nat) (v : Word) (i : Fin 4) :
    readByte (writeBytes m a (lanes v)) (a + i.val) = lane v i.val :=
  (readByte_writeBytes_inside (lanes v) m a i.val hm i.isLt).trans (getElem_lanes v i)

theorem bytesKept_writeBytes_lanes (m : Memory) (a : Nat) (v : Word) : bytesKept m (writeBytes m a (lanes v)) a 4 :=
  fun x hx => readByte_writeBytes_outside (lanes v) m a x hx

theorem memWrite_rbuf_mem {s : State} (hb : s.busy = false) (j : Fin 4) (v : Word) :
    (memWrite (Config.base + (0x080 + 4 * j.val)) 4 v s).mem = writeBytes s.mem (0x080 + 4 * j.val) (lanes v) :=
  congrArg State.mem (memWrite_idle hb (r := .rbuf j) nofun v)

theorem memWrite_dbuf_mem {s : State} (hb : s.busy = false) (j : Fin 64) (v : Word) :
    (memWrite (Config.base + (0x400 + 4 * j.val)) 4 v s).mem = writeBytes s.mem (0x400 + 4 * j.val) (lanes v) :=
  congrArg State.mem (memWrite_idle hb (r := .dbuf j) nofun v)

theorem memWrite_key_key {s : State} (hb : s.busy = false) (j : Fin 4) (v : Word) :
    (memWrite (Config.base + (0x040 + 4 * j.val)) 4 v s).key = setBlockWord s.key j v :=
  congrArg State.key (memWrite_idle hb (r := .key j) nofun v)

theorem getElem_setBlockWord (x : Block) (j : Fin 4) (v : Word) (n : Fin 16) :
    (setBlockWord x j v)[n] = if n.val / 4 = j.val then lane v (n.val % 4) else x[n] := by
  simp [setBlockWord]

/-- Settles O20. -/
theorem byteLanesOfTheBuffers : Obligations.ByteLanesOfTheBuffers := by
  intro s v hb hm
  refine ⟨fun j i => ⟨lane_memWord s.mem _ i, ?_⟩, fun j => ?_, fun j i => ⟨lane_memWord s.mem _ i, ?_⟩, fun j => ?_,
    fun j n => ⟨lane_blockWord_of_div, ?_⟩⟩
  · rw [memWrite_dbuf_mem hb]
    exact readByte_writeBytes_lane hm _ v i
  · rw [memWrite_dbuf_mem hb]
    exact bytesKept_writeBytes_lanes s.mem _ v
  · rw [memWrite_rbuf_mem hb]
    exact readByte_writeBytes_lane hm _ v i
  · rw [memWrite_rbuf_mem hb]
    exact bytesKept_writeBytes_lanes s.mem _ v
  · rw [memWrite_key_key hb]
    exact getElem_setBlockWord s.key j v n

/-! # The step (20_memory.md R71, R72, R82; 30_encoding.md R102, R105) -/

theorem engineStep_of_decode {s : State} {i : Instr} (hb : s.busy = true) (hd : decode s.cmdr = .ok i) :
    engineStep s = exec i s :=
  (engineStep_busy s hb).trans (completionStep_of_decode s i hd)

/-- Settles O5. -/
theorem stepRunsTheDecodedCommand : Obligations.StepRunsTheDecodedCommand := by
  refine ⟨?noneThenCommand, ?turnThenCommand, ?noneThenIllegal, ?turnThenIllegal, ?turnIdle, ?noneIdle, ?read, ?write⟩
  case noneThenCommand =>
    intro s i hb hd hscript
    rw [step_of_script_nil s hscript, engineStep_of_decode hb hd]
  case turnThenCommand =>
    intro s i es hb hd hscript
    exact (step_of_script_cons s .engine es hscript).trans (engineStep_of_decode (s := setScript es s) hb hd)
  case noneThenIllegal =>
    intro s _ hb _ hscript
    rw [step_of_script_nil s hscript, engineStep_busy s hb]
  case turnThenIllegal =>
    intro s _ es hb _ hscript
    exact (step_of_script_cons s .engine es hscript).trans (engineStep_busy (setScript es s) hb)
  case turnIdle =>
    intro s es hb hscript
    exact (step_of_script_cons s .engine es hscript).trans (engineStep_idle (setScript es s) hb)
  case noneIdle =>
    intro s hb hscript
    rw [step_of_script_nil s hscript, engineStep_idle s hb]
  case read =>
    intro s addr n es hscript
    exact step_of_script_cons s (.read addr n) es hscript
  case write =>
    intro s addr n v es hscript
    exact step_of_script_cons s (.write addr n v) es hscript

end Sys2Proof.MemoryFamily

namespace Sys2Proof.EncodingFamily

open Sys2Proof.Machine Sys2Proof.Safety Sys2Proof.StateFamily Sys2Proof.MemoryFamily Sys2Proof.Laws

/-! # A command word and its four fields (30_encoding.md R100) -/

theorem toNat_opField (w : Word) : (opField w).toNat = w.toNat % 256 :=
  (toNat_lane w 0).trans (by omega)

theorem toNat_fField (w : Word) : (fField w).toNat = w.toNat / 256 % 256 := toNat_lane w 1

theorem toNat_kField (w : Word) : (kField w).toNat = w.toNat / 65536 % 256 := toNat_lane w 2

theorem toNat_zField (w : Word) : (zField w).toNat = w.toNat / 16777216 := by
  have hw := w.isLt
  exact (toNat_lane w 3).trans (by omega)

/-- The fields are the four lanes of the word, so they determine it. -/
theorem eq_iff_fields (v w : Word) :
    v = w ↔ opField v = opField w ∧ fField v = fField w ∧ kField v = kField w ∧ zField v = zField w := by
  refine ⟨by rintro rfl; exact ⟨rfl, rfl, rfl, rfl⟩, fun ⟨hop, hf, hk, hz⟩ => ?_⟩
  calc v
    _ = wordOfLanes (opField v) (fField v) (kField v) (zField v) := (wordOfLanes_lane v).symm
    _ = wordOfLanes (opField w) (fField w) (kField w) (zField w) := by rw [hop, hf, hk, hz]
    _ = w := wordOfLanes_lane w

theorem commandWordOf_eq_iff (op f k : Byte) (w : Word) :
    commandWordOf op f k = w ↔ opField w = op ∧ fField w = f ∧ kField w = k ∧ zField w = 0 := by
  rw [eq_comm, eq_iff_fields, opField_commandWordOf, fField_commandWordOf, kField_commandWordOf,
    zField_commandWordOf]

/-! # The rows of the opcode map (table T108) -/

/-- Formats F1 and FK have the operand F (R100). -/
def takesF : Format → Bool
  | .z0 _ => false
  | .f1 _ => true
  | .fk _ => true

/-- Format FK has the operand K (R100). -/
def takesK : Format → Bool
  | .z0 _ => false
  | .f1 _ => false
  | .fk _ => true

/-- The command a row gives for the contents of F and K. -/
def build : Format → Byte → Byte → Instr
  | .z0 i, _, _ => i
  | .f1 mk, f, _ => mk f
  | .fk mk, f, k => mk f k

/-- Check (2) of R102: the fields that are no operand of the row are zero. -/
abbrev ZeroFields (row : Format) (w : Word) : Prop :=
  zField w = 0 ∧ (takesK row = false → kField w = 0) ∧ (takesF row = false → fField w = 0)

/-- Check (3) of R102: the operand F of a row is a field index. -/
abbrev IndexOk (row : Format) (f : Byte) : Prop := takesF row = true → fieldIndexOk f = true

/-- The fourteen rows of table T108 with their opcodes. -/
def opcodeMap : List (Byte × Format) :=
  [(0x00, .z0 .nop), (0x01, .z0 .srst), (0x10, .z0 .ecbEnc), (0x11, .z0 .ecbDec), (0x12, .z0 .ksXor),
   (0x13, .z0 .cmac), (0x14, .z0 .micData), (0x20, .z0 .bfEncode), (0x21, .z0 .bfDecode), (0x22, .f1 .bfSet),
   (0x23, .f1 .bfGet), (0x24, .fk .bfTest), (0x25, .f1 .bfEchk), (0x26, .z0 .bfClr)]

theorem opcodeRow_of_mem {op : Byte} {row : Format} (h : (op, row) ∈ opcodeMap) : opcodeRow op = some row := by
  have key : ∀ p ∈ opcodeMap, opcodeRow p.1 = some p.2 := by
    simp only [opcodeMap, List.forall_mem_cons]
    exact ⟨rfl, rfl, rfl, rfl, rfl, rfl, rfl, rfl, rfl, rfl, rfl, rfl, rfl, rfl, nofun⟩
  exact key _ h

theorem mem_of_opcodeRow {op : Byte} {row : Format} (h : opcodeRow op = some row) : (op, row) ∈ opcodeMap := by
  have at_opcode (n : Nat) (hn : n < 256) (hop : op.toNat = n) (hmem : (BitVec.ofNat 8 n, row) ∈ opcodeMap) :
      (op, row) ∈ opcodeMap := by
    rwa [← hop, BitVec.ofNat_toNat, BitVec.setWidth_eq] at hmem
  unfold opcodeRow at h
  split at h <;> cases h
  all_goals
    next hop => exact at_opcode _ (by decide) hop (by simp [opcodeMap])

/-- A row's command has the word of its operands, and is well formed as check (3) says. -/
theorem encode_build {op : Byte} {row : Format} (hrow : (op, row) ∈ opcodeMap) {f k : Byte}
    (hf : takesF row = false → f = 0) (hk : takesK row = false → k = 0) :
    encode (build row f k) = commandWordOf op f k ∧ ((build row f k).wellFormed = true ↔ IndexOk row f) := by
  unfold opcodeMap at hrow
  generalize hp : (op, row) = p at hrow
  cases row with
  | z0 i =>
    obtain rfl := hf rfl
    obtain rfl := hk rfl
    fin_cases hrow <;> cases hp <;> exact ⟨rfl, fun _ => nofun, fun _ => rfl⟩
  | f1 mk =>
    obtain rfl := hk rfl
    fin_cases hrow <;> cases hp <;> exact ⟨rfl, fun h _ => h, fun h => h rfl⟩
  | fk mk =>
    fin_cases hrow <;> cases hp
    exact ⟨rfl, fun h _ => h, fun h => h rfl⟩

/-- Every command stands in a row, with operands that are zero where the row has none. -/
theorem exists_row (i : Instr) :
    ∃ op row f k, (op, row) ∈ opcodeMap ∧ build row f k = i ∧ (takesF row = false → f = 0) ∧
      (takesK row = false → k = 0) := by
  cases i with
  | bfSet f => exact ⟨0x22, .f1 .bfSet, f, 0, by simp [opcodeMap], rfl, nofun, fun _ => rfl⟩
  | bfGet f => exact ⟨0x23, .f1 .bfGet, f, 0, by simp [opcodeMap], rfl, nofun, fun _ => rfl⟩
  | bfTest f k => exact ⟨0x24, .fk .bfTest, f, k, by simp [opcodeMap], rfl, nofun, nofun⟩
  | bfEchk f => exact ⟨0x25, .f1 .bfEchk, f, 0, by simp [opcodeMap], rfl, nofun, fun _ => rfl⟩
  | _ => exact ⟨_, .z0 _, 0, 0, by simp [opcodeMap]; rfl, rfl, fun _ => rfl, fun _ => rfl⟩

/-! # Decoding (30_encoding.md R101, R102) -/

/-- Checks (2) and (3) of R102 on a word whose opcode has a row. -/
theorem decode_of_row {w : Word} {row : Format} (hrow : opcodeRow (opField w) = some row) :
    decode w =
      if ZeroFields row w then
        if IndexOk row (fField w) then .ok (build row (fField w) (kField w)) else .error (.fieldIndex (fField w))
      else .error .nonzeroField := by
  unfold decode
  cases row with
  | z0 i => simp [hrow, ZeroFields, takesF, takesK, build]
  | f1 mk => simp [hrow, ZeroFields, takesF, takesK, build]
  | fk mk => simp [hrow, ZeroFields, takesF, takesK, build]

theorem decode_of_no_row {w : Word} (h : opcodeRow (opField w) = none) : decode w = .error .unknownOpcode := by
  simp only [decode, h]

theorem decode_of_nonzero {w : Word} {row : Format} (hrow : opcodeRow (opField w) = some row)
    (hzero : ¬ZeroFields row w) : decode w = .error .nonzeroField := by
  rw [decode_of_row hrow, if_neg hzero]

theorem decode_of_bad_index {w : Word} {row : Format} (hrow : opcodeRow (opField w) = some row)
    (hzero : ZeroFields row w) (hindex : ¬IndexOk row (fField w)) : decode w = .error (.fieldIndex (fField w)) := by
  rw [decode_of_row hrow, if_pos hzero, if_neg hindex]

theorem decode_of_legal {w : Word} {row : Format} (hrow : opcodeRow (opField w) = some row)
    (hzero : ZeroFields row w) (hindex : IndexOk row (fField w)) :
    decode w = .ok (build row (fField w) (kField w)) := by
  rw [decode_of_row hrow, if_pos hzero, if_pos hindex]

/-- A word that decodes has passed the three checks. -/
theorem legal_of_decode {w : Word} {i : Instr} (h : decode w = .ok i) :
    ∃ row, opcodeRow (opField w) = some row ∧ ZeroFields row w ∧ IndexOk row (fField w) ∧
      build row (fField w) (kField w) = i := by
  cases hrow : opcodeRow (opField w) with
  | none => exact nomatch (decode_of_no_row hrow).symm.trans h
  | some row =>
    by_cases hzero : ZeroFields row w
    · by_cases hindex : IndexOk row (fField w)
      · exact ⟨row, rfl, hzero, hindex, Except.ok.inj ((decode_of_legal hrow hzero hindex).symm.trans h)⟩
      · exact nomatch (decode_of_bad_index hrow hzero hindex).symm.trans h
    · exact nomatch (decode_of_nonzero hrow hzero).symm.trans h

/-- Settles O1: a word is its four fields, so check (2) says that it is the word of its row's command. -/
theorem decodeAgreesWithEncode : Obligations.DecodeAgreesWithEncode := by
  intro w i
  constructor
  · intro h
    obtain ⟨row, hrow, ⟨hz, hk, hf⟩, hindex, rfl⟩ := legal_of_decode h
    obtain ⟨hword, hwf⟩ := encode_build (mem_of_opcodeRow hrow) hf hk
    exact ⟨hwf.2 hindex, hword.trans ((commandWordOf_eq_iff _ _ _ w).2 ⟨rfl, rfl, rfl, hz⟩)⟩
  · rintro ⟨hwf, henc⟩
    obtain ⟨op, row, f, k, hmem, rfl, hf, hk⟩ := exists_row i
    obtain ⟨hword, hindex⟩ := encode_build hmem hf hk
    obtain ⟨rfl, rfl, rfl, hz⟩ := (commandWordOf_eq_iff op f k w).1 (hword.symm.trans henc)
    exact decode_of_legal (opcodeRow_of_mem hmem) ⟨hz, hk, hf⟩ (hindex.1 hwf)

/-! # Masks (table T108) -/

/-- A mask that takes each field whole or not at all compares just the fields it takes. -/
theorem and_eq_iff_fields (w m v : Word) :
    w &&& m = v ↔ opField w &&& opField m = opField v ∧ fField w &&& fField m = fField v ∧
      kField w &&& kField m = kField v ∧ zField w &&& zField m = zField v := by
  have field (a : Nat) : (w &&& m).extractLsb' a 8 = w.extractLsb' a 8 &&& m.extractLsb' a 8 :=
    BitVec.extractLsb'_and
  rw [eq_iff_fields]
  simp only [opField, fField, kField, zField, field]

/-- The mask of format Z0 compares the whole word. -/
theorem decode_eq_ok_iff_z0 (w : Word) (i : Instr) (v : Word) (hi : i.wellFormed = true) (hv : encode i = v) :
    decode w = .ok i ↔ w &&& 0xFFFFFFFF = v := by
  have hmask : w &&& 0xFFFFFFFF = w := BitVec.and_allOnes
  rw [decodeAgreesWithEncode, hmask, hv, eq_comm (a := v)]
  exact and_iff_right hi

theorem fieldIndexOk_iff (f : Byte) : fieldIndexOk f = true ↔ f.toNat < 16 := decide_eq_true_iff

/-- The mask of format F1 leaves out F. -/
theorem decode_eq_ok_iff_f1 (w : Word) (op f : Byte) (i : Instr) (v : Word) (hi : i.wellFormed = fieldIndexOk f)
    (henc : encode i = commandWordOf op f 0) (hv : v = commandWordOf op 0 0) :
    decode w = .ok i ↔ (w &&& 0xFFFF00FF = v ∧ w.extractLsb' 8 8 = f ∧ f.toNat < 16) := by
  have hmask : w &&& 0xFFFF00FF = v ↔ opField w = op ∧ kField w = 0 ∧ zField w = 0 := by
    rw [and_eq_iff_fields, hv, opField_commandWordOf, fField_commandWordOf, kField_commandWordOf,
      zField_commandWordOf]
    have hop : opField w &&& opField 0xFFFF00FF = opField w := BitVec.and_allOnes
    have hf : fField w &&& fField 0xFFFF00FF = 0 := BitVec.and_zero
    have hk : kField w &&& kField 0xFFFF00FF = kField w := BitVec.and_allOnes
    have hz : zField w &&& zField 0xFFFF00FF = zField w := BitVec.and_allOnes
    rw [hop, hf, hk, hz]
    exact ⟨fun ⟨h1, _, h3, h4⟩ => ⟨h1, h3, h4⟩, fun ⟨h1, h3, h4⟩ => ⟨h1, rfl, h3, h4⟩⟩
  rw [decodeAgreesWithEncode, hi, fieldIndexOk_iff, henc, commandWordOf_eq_iff, hmask, fField]
  tauto

/-- The mask of format FK leaves out F and K. -/
theorem decode_eq_ok_iff_fk (w : Word) (f k : Byte) :
    decode w = .ok (.bfTest f k) ↔
      (w &&& 0xFF0000FF = 0x24 ∧ w.extractLsb' 8 8 = f ∧ w.extractLsb' 16 8 = k ∧ f.toNat < 16) := by
  have hmask : w &&& 0xFF0000FF = 0x24 ↔ opField w = 0x24 ∧ zField w = 0 := by
    rw [and_eq_iff_fields]
    have hop : opField w &&& opField 0xFF0000FF = opField w := BitVec.and_allOnes
    have hf : fField w &&& fField 0xFF0000FF = 0 := BitVec.and_zero
    have hk : kField w &&& kField 0xFF0000FF = 0 := BitVec.and_zero
    have hz : zField w &&& zField 0xFF0000FF = zField w := BitVec.and_allOnes
    rw [hop, hf, hk, hz]
    exact ⟨fun ⟨h1, _, _, h4⟩ => ⟨h1, h4⟩, fun ⟨h1, h4⟩ => ⟨h1, rfl, rfl, h4⟩⟩
  rw [decodeAgreesWithEncode, Instr.wellFormed, fieldIndexOk_iff, encode, commandWordOf_eq_iff, hmask, fField, kField]
  tauto

/-- Settles O2: on the fields of the word each mask says what the encoding of the row's command says. -/
theorem maskAndMatchOfTheOpcodeMap : Obligations.MaskAndMatchOfTheOpcodeMap := by
  intro w
  have z0 {i : Instr} {v : Word} (hi : i.wellFormed = true) (hv : encode i = v) := decode_eq_ok_iff_z0 w i v hi hv
  exact ⟨z0 rfl rfl, z0 rfl rfl, z0 rfl rfl, z0 rfl rfl, z0 rfl rfl, z0 rfl rfl, z0 rfl rfl, z0 rfl rfl, z0 rfl rfl,
    fun f => decode_eq_ok_iff_f1 w 0x22 f _ _ rfl rfl rfl, fun f => decode_eq_ok_iff_f1 w 0x23 f _ _ rfl rfl rfl,
    decode_eq_ok_iff_fk w, fun f => decode_eq_ok_iff_f1 w 0x25 f _ _ rfl rfl rfl, z0 rfl rfl⟩

/-! # Completion of a word that is no command (30_encoding.md R102, R109) -/

/-- Error entry in the terms of the statements (R245). -/
theorem raiseError_eq_failed (e : CmdError) (s : State) :
    raiseError e s = failed s e.code.number.toNat e.sub.toNat e.field.toNat := by
  have hinfo : errinfoOf e = BitVec.ofNat 16 (256 * e.sub.toNat + e.field.toNat) := by
    have hsub := e.sub.isLt
    have hfield := e.field.isLt
    apply BitVec.eq_of_toNat_eq
    have hor : (errinfoOf e).toNat = e.sub.toNat <<< 8 ||| e.field.toNat := by
      simp (disch := omega) [errinfoOf, Nat.shiftLeft_eq, Nat.mod_eq_of_lt]
    rw [hor, shiftLeft_or_eq_add _ _ 8 hfield, BitVec.toNat_ofNat]
    omega
  simp only [raiseError, failed, hinfo, BitVec.ofNat_toNat, BitVec.setWidth_eq]

theorem completionStep_of_unknownOpcode {s : State} (h : decode s.cmdr = .error .unknownOpcode) :
    completionStep s = .next (failed s 5 1 0xFF) :=
  (completionStep_of_illegal s _ h).trans (congrArg _ (raiseError_eq_failed _ s))

theorem completionStep_of_nonzeroField {s : State} (h : decode s.cmdr = .error .nonzeroField) :
    completionStep s = .next (failed s 5 2 0xFF) :=
  (completionStep_of_illegal s _ h).trans (congrArg _ (raiseError_eq_failed _ s))

theorem completionStep_of_fieldIndex {s : State} {f : Byte} (h : decode s.cmdr = .error (.fieldIndex f)) :
    completionStep s = .next (failed s 5 3 f.toNat) :=
  (completionStep_of_illegal s _ h).trans (congrArg _ (raiseError_eq_failed _ s))

/-- Settles O3. -/
theorem wordsOfTheEncodingExamples : Obligations.WordsOfTheEncodingExamples := by
  refine ⟨(decodeAgreesWithEncode _ _).2 ⟨rfl, rfl⟩, rfl, (decodeAgreesWithEncode _ _).2 ⟨rfl, rfl⟩, rfl,
    (decodeAgreesWithEncode _ _).2 ⟨rfl, rfl⟩, rfl, fun s => ⟨fun h => ?_, fun h => ?_, fun h => ?_⟩⟩
  · exact completionStep_of_nonzeroField (h ▸ rfl)
  · exact completionStep_of_fieldIndex (f := 16) (h ▸ rfl)
  · exact completionStep_of_unknownOpcode (h ▸ rfl)

/-! ## The three checks in their order -/

/-- The opcodes of format Z0. -/
abbrev z0Opcodes : List Nat := [0x00, 0x01, 0x10, 0x11, 0x12, 0x13, 0x14, 0x20, 0x21, 0x26]

/-- The opcodes of format F1. -/
abbrev f1Opcodes : List Nat := [0x22, 0x23, 0x25]

/-- The opcode of format FK. -/
abbrev fkOpcodes : List Nat := [0x24]

/-- The opcode alone tells which operands its row has. -/
theorem operands_of_opcode {op : Byte} {row : Format} (h : opcodeRow op = some row) :
    op.toNat ∈ z0Opcodes ++ f1Opcodes ++ fkOpcodes ∧ (op.toNat ∈ z0Opcodes ++ f1Opcodes ↔ takesK row = false) ∧
      (op.toNat ∈ z0Opcodes ↔ takesF row = false) ∧ (op.toNat ∈ f1Opcodes ++ fkOpcodes ↔ takesF row = true) := by
  have hmem := mem_of_opcodeRow h
  unfold opcodeMap at hmem
  generalize hp : (op, row) = p at hmem
  fin_cases hmem <;> obtain ⟨rfl, rfl⟩ := Prod.mk.inj hp <;> decide

theorem not_mem_of_no_row {op : Byte} (h : opcodeRow op = none) :
    op.toNat ∉ z0Opcodes ++ f1Opcodes ++ fkOpcodes := by
  have listed : ∀ n ∈ z0Opcodes ++ f1Opcodes ++ fkOpcodes, (opcodeRow (BitVec.ofNat 8 n)).isSome = true := by decide
  intro hin
  have hrow := listed _ hin
  rw [BitVec.ofNat_toNat, BitVec.setWidth_eq, h] at hrow
  exact nomatch hrow

/-- Settles O4: the opcode fixes the row, and the row says which fields checks (2) and (3) read. -/
theorem illegalWordsRaiseIllcmdInOrder : Obligations.IllegalWordsRaiseIllcmdInOrder := by
  intro s op f k z hop hf hk hz z0 f1 opcodes zeroFields
  rw [← toNat_opField] at hop
  rw [← toNat_fField] at hf
  rw [← toNat_kField] at hk
  rw [← toNat_zField] at hz
  subst hop hf hk hz
  cases hrow : opcodeRow (opField s.cmdr) with
  | none =>
    have hout := not_mem_of_no_row hrow
    exact ⟨fun _ => completionStep_of_unknownOpcode (decode_of_no_row hrow), fun h => absurd h hout,
      fun h => absurd (List.mem_append_right z0 h) hout, fun h => absurd h hout⟩
  | some row =>
    obtain ⟨hin, hK, hZ0, hF⟩ := operands_of_opcode hrow
    have hzero : zeroFields ↔ ZeroFields row s.cmdr := by
      simp only [zeroFields, z0, f1, ZeroFields, hK, hZ0, BitVec.toNat_eq]
      rfl
    have hindex : ((opField s.cmdr).toNat ∈ f1 ++ [0x24] → (fField s.cmdr).toNat < 16) ↔
        IndexOk row (fField s.cmdr) := by
      rw [IndexOk, fieldIndexOk_iff, ← hF]
    refine ⟨fun h => absurd hin h, fun _ h => ?_, fun h1 h2 h3 => ?_, fun _ h1 h2 => ?_⟩
    · exact completionStep_of_nonzeroField (decode_of_nonzero hrow (hzero.not.1 h))
    · have hbad : ¬IndexOk row (fField s.cmdr) := fun hok => absurd (hindex.2 hok h1) (Nat.not_lt.2 h3)
      exact completionStep_of_fieldIndex (decode_of_bad_index hrow (hzero.1 h2) hbad)
    · have hd := decode_of_legal hrow (hzero.1 h1) (hindex.1 h2)
      exact ⟨_, hd, completionStep_of_decode s _ hd⟩

/-! # Every step answers a next state (30_encoding.md R105; 60_exceptions.md R240, R245) -/

/-- What a command's own rule may change: the buffers, TAG, RLEN, FDATA, FV and T. -/
def ResultsOnly (s u : State) : Prop :=
  ∃ m x n v fv b, u = { s with mem := m, tag := x, rlen := n, fdata := v, fv := fv, t := b }

/-- The result of a rule, where it raises no error, has a property. -/
def OkHas {α : Type} (P : α → Prop) (r : Except CmdError α) : Prop := ∀ a, r = .ok a → P a

theorem okHas_pure {α : Type} {P : α → Prop} {a : α} (h : P a) : OkHas P (.ok a) := by
  rintro _ ⟨⟩
  exact h

/-- A check before the rule's end adds nothing to its result. -/
theorem okHas_bind {α β : Type} {P : β → Prop} {x : Except CmdError α} {g : α → Except CmdError β}
    (hg : ∀ a, OkHas P (g a)) : OkHas P (x >>= g) := by
  intro b h
  obtain ⟨a, -, ha⟩ := (bind_eq_ok x g b).1 h
  exact hg a b ha

theorem resultsOnly_refl (s : State) : ResultsOnly s s := ⟨s.mem, s.tag, s.rlen, s.fdata, s.fv, s.t, rfl⟩

theorem resultsOnly_setMem (m : Memory) (s : State) : ResultsOnly s (setMem m s) :=
  ⟨m, s.tag, s.rlen, s.fdata, s.fv, s.t, rfl⟩

theorem resultsOnly_setTag (x : Block) (s : State) : ResultsOnly s (setTag x s) :=
  ⟨s.mem, x, s.rlen, s.fdata, s.fv, s.t, rfl⟩

theorem resultsOnly_setRlen_setMem (n : Byte) (m : Memory) (s : State) : ResultsOnly s (setRlen n (setMem m s)) :=
  ⟨m, s.tag, n, s.fdata, s.fv, s.t, rfl⟩

theorem resultsOnly_setFdata (v : Value) (s : State) : ResultsOnly s (setFdata v s) :=
  ⟨s.mem, s.tag, s.rlen, v, s.fv, s.t, rfl⟩

theorem resultsOnly_setAllFv (fv : Vector Value 16) (s : State) : ResultsOnly s (setAllFv fv s) :=
  ⟨s.mem, s.tag, s.rlen, s.fdata, fv, s.t, rfl⟩

theorem resultsOnly_setFv (f : Fin 16) (v : Value) (s : State) : ResultsOnly s (setFv f v s) :=
  resultsOnly_setAllFv _ s

theorem resultsOnly_setT (b : Bool) (s : State) : ResultsOnly s (setT b s) :=
  ⟨s.mem, s.tag, s.rlen, s.fdata, s.fv, b, rfl⟩

theorem okHas_ecbResult (g : Block → Block → Block) (s : State) : OkHas (ResultsOnly s) (ecbResult g s) :=
  okHas_bind fun _ => okHas_bind fun _ => okHas_bind fun _ => okHas_pure (resultsOnly_setMem _ s)

/-- Every command but SRST completes by a rule that changes its results alone. -/
theorem exec_eq_complete {i : Instr} (hi : i ≠ .srst) (s : State) :
    ∃ r, exec i s = complete s r ∧ OkHas (ResultsOnly s) r := by
  cases i with
  | srst => exact absurd rfl hi
  | nop => exact ⟨_, rfl, okHas_pure (resultsOnly_refl s)⟩
  | ecbEnc | ecbDec => exact ⟨_, rfl, okHas_ecbResult _ s⟩
  | ksXor => exact ⟨_, rfl, okHas_bind fun _ => okHas_bind fun _ => okHas_pure (resultsOnly_setMem _ s)⟩
  | cmac => exact ⟨_, rfl, okHas_bind fun _ => okHas_bind fun _ => okHas_pure (resultsOnly_setTag _ s)⟩
  | micData =>
    exact ⟨_, rfl, okHas_bind fun _ => okHas_bind fun _ => okHas_bind fun _ =>
      okHas_pure (resultsOnly_setTag _ s)⟩
  | bfEncode => exact ⟨_, rfl, okHas_bind fun _ => okHas_pure (resultsOnly_setRlen_setMem _ _ s)⟩
  | bfDecode =>
    exact ⟨_, rfl, okHas_bind fun _ => okHas_bind fun _ => okHas_bind fun _ =>
      okHas_pure (resultsOnly_setAllFv _ s)⟩
  | bfSet f =>
    exact ⟨_, rfl, okHas_bind fun _ => okHas_bind fun _ => okHas_bind fun _ =>
      okHas_pure (resultsOnly_setFv _ _ s)⟩
  | bfGet f =>
    exact ⟨_, rfl, okHas_bind fun _ => okHas_bind fun _ => okHas_bind fun _ =>
      okHas_pure (resultsOnly_setFdata _ s)⟩
  | bfTest f k =>
    exact ⟨_, rfl, okHas_bind fun _ => okHas_bind fun _ => okHas_bind fun _ => okHas_bind fun _ =>
      okHas_pure (resultsOnly_setT _ s)⟩
  | bfEchk f =>
    exact ⟨_, rfl, okHas_bind fun _ => okHas_bind fun _ => okHas_bind fun _ => okHas_bind fun _ =>
      okHas_pure (resultsOnly_refl s)⟩
  | bfClr => exact ⟨_, rfl, okHas_pure (resultsOnly_setAllFv _ s)⟩

theorem exec_srst (s : State) : exec .srst s = .next (resetBlock s) := rfl

/-- A command other than SRST ends with an error record alone, or with DONE and its results (R105, R245). -/
theorem exec_cases {i : Instr} (hi : i ≠ .srst) {s t : State} (h : exec i s = .next t) :
    (∃ e, t = raiseError e s) ∨ ∃ u, ResultsOnly s u ∧ t = finishCommand u := by
  obtain ⟨r, hr, hok⟩ := exec_eq_complete hi s
  obtain ⟨e, -, rfl⟩ | ⟨u, hu, rfl⟩ := complete_cases s t r (hr ▸ h)
  · exact .inl ⟨e, rfl⟩
  · exact .inr ⟨u, hok u hu, rfl⟩

theorem exec_next (i : Instr) (s : State) : ∃ t, exec i s = .next t := by
  by_cases hi : i = .srst
  · exact ⟨resetBlock s, hi ▸ exec_srst s⟩
  · obtain ⟨r, hr, -⟩ := exec_eq_complete hi s
    exact hr ▸ complete_next s r

theorem engineStep_next (s : State) : ∃ t, engineStep s = .next t := by
  cases hb : s.busy with
  | false => exact ⟨s, engineStep_idle s hb⟩
  | true =>
    rw [engineStep_busy s hb]
    cases hd : decode s.cmdr with
    | error e => exact ⟨_, completionStep_of_illegal s e hd⟩
    | ok i => exact completionStep_of_decode s i hd ▸ exec_next i s

theorem runEvent_next (e : Event) (s : State) : ∃ t, runEvent e s = .next t := by
  cases e with
  | engine => exact engineStep_next s
  | read _ _ | write _ _ _ | fetch _ _ | reset => exact ⟨_, rfl⟩

/-- Settles O7. -/
theorem everyStepAnswersNext : Obligations.EveryStepAnswersNext := by
  refine ⟨fun s => ?_, exec_next⟩
  cases hscript : s.script with
  | nil => exact step_of_script_nil s hscript ▸ engineStep_next s
  | cons e es => exact step_of_script_cons s e es hscript ▸ runEvent_next e _

/-! # DONE and ERR after a completion (30_encoding.md R105; 44_system.md R231) -/

theorem decode_srst_iff (w : Word) : decode w = .ok .srst ↔ w = 0x00000001 := by
  rw [decodeAgreesWithEncode]
  exact ⟨fun h => h.2.symm, fun h => ⟨rfl, h.symm⟩⟩

/-- An error record clears BUSY and leaves DONE = 0. -/
theorem flags_of_raiseError {s : State} (hd : s.done = false) (e : CmdError) :
    (raiseError e s).busy = false ∧ (raiseError e s).done = !(raiseError e s).err := by
  simp [hd]

/-- A completion without an error clears BUSY, sets DONE and leaves ERR = 0. -/
theorem flags_of_finishCommand {s u : State} (he : s.err = false) (hu : ResultsOnly s u) :
    (finishCommand u).busy = false ∧ (finishCommand u).done = !(finishCommand u).err := by
  obtain ⟨m, x, n, v, fv, b, rfl⟩ := hu
  simp [he]

/-- Every completion but that of SRST sets exactly one of DONE and ERR. -/
theorem flags_of_completionStep {s t : State} (he : s.err = false) (hd : s.done = false)
    (hw : s.cmdr ≠ 0x00000001) (h : completionStep s = .next t) : t.busy = false ∧ t.done = !t.err := by
  cases hdec : decode s.cmdr with
  | error e =>
    obtain rfl := Host.Outcome.next.inj ((completionStep_of_illegal s e hdec).symm.trans h)
    exact flags_of_raiseError hd _
  | ok i =>
    have hi : i ≠ .srst := fun hi => hw ((decode_srst_iff _).1 (hi ▸ hdec))
    obtain ⟨e, rfl⟩ | ⟨u, hu, rfl⟩ := exec_cases hi ((completionStep_of_decode s i hdec).symm.trans h)
    · exact flags_of_raiseError hd e
    · exact flags_of_finishCommand he hu

/-- Settles O12: SRST leaves the reset state; every other word ends in an error record or in DONE. -/
theorem completionSetsOneOfDoneAndErr : Obligations.CompletionSetsOneOfDoneAndErr := by
  intro s t hb he hd h
  rw [engineStep_busy s hb] at h
  by_cases hw : s.cmdr = 0x00000001
  · have hexec := completionStep_of_decode s .srst ((decode_srst_iff _).2 hw)
    obtain rfl := Host.Outcome.next.inj ((exec_srst s).symm.trans (hexec.symm.trans h))
    exact ⟨rfl, fun _ => ⟨rfl, rfl⟩, fun hne => absurd hw hne⟩
  · obtain ⟨hbusy, hflags⟩ := flags_of_completionStep he hd hw h
    exact ⟨hbusy, fun h1 => absurd h1 hw, fun _ => hflags⟩

/-! # Acceptance of a command word (30_encoding.md R104) -/

/-- Settles O15: CMD is written at offset 4, and R77 drops just these two writes of it. -/
theorem acceptanceOfACommand : Obligations.AcceptanceOfACommand := by
  intro s w
  obtain ⟨hdropped, haccepted⟩ := droppedWritesOnlySetWerr s .cmd w
  refine ⟨fun hb he => haccepted ?_, fun h => hdropped ?_⟩
  · simp [hb, he]
  · cases hb : s.busy with
    | true => simp
    | false => simpa [hb] using h

theorem tableWord_toNat (w : Word) : tableWord 32 w.toNat = w := by
  rw [tableWord, Nat.mod_eq_of_lt w.isLt, BitVec.ofNat_toNat, BitVec.setWidth_eq]

/-- Settles O6. -/
theorem placedWordRunsNext : Obligations.PlacedWordRunsNext := by
  intro s w i hd
  rw [State.withFetchWord, tableWord_toNat]
  exact (step_of_script_cons _ .engine s.script rfl).trans
    (engineStep_of_decode (s := { s with cmdr := w, busy := true, done := false }) rfl hd)

/-! # The writes of a script line on an idle block (30_encoding.md R110, R111) -/

/-- Only a write of CMD sets BUSY. -/
theorem writeReg_busy {r : Reg} (hr : r ≠ .cmd) (v : Word) (s : State) : (writeReg r v s).busy = s.busy := by
  cases r with
  | cmd => exact absurd rfl hr
  | status => exact writeStatus_busy v s
  | _ => rfl

/-- One register write and its answer, as an idle block takes it. -/
def acceptWrite (s : State) (p : Reg × Word) : State := setAnswer .written (writeReg p.1 p.2 s)

/-- On an idle block every write of a line that has no `cmd` is accepted, one after the other. -/
theorem runEvents_wrEvents {s : State} (hb : s.busy = false) {ps : List (Reg × Word)}
    (hps : ∀ p ∈ ps, p.1 ≠ .cmd) :
    runEvents (ps.map fun p => wrEvent p.1 p.2) s = .next (ps.foldl acceptWrite s) := by
  induction ps generalizing s with
  | nil => rfl
  | cons p ps ih =>
    obtain ⟨hp, hrest⟩ := List.forall_mem_cons.1 hps
    have hbusy : (acceptWrite s p).busy = false := (writeReg_busy hp p.2 s).trans hb
    have hwrite : memWrite (Config.base + offsetOf p.1) 4 p.2 s = acceptWrite s p := memWrite_idle hb hp p.2
    have hrun : runEvents ((p :: ps).map fun p => wrEvent p.1 p.2) s =
        runEvents (ps.map fun p => wrEvent p.1 p.2) (memWrite (Config.base + offsetOf p.1) 4 p.2 s) := rfl
    rw [hrun, hwrite, ih hbusy hrest]
    rfl

/-! ## The wide registers written word by word -/

/-- Four writes of its words make a 16-byte array (R74). -/
theorem setBlockWord_blockWord (x k : Block) :
    setBlockWord (setBlockWord (setBlockWord (setBlockWord x 0 (blockWord k 0)) 1 (blockWord k 1)) 2 (blockWord k 2)) 3
      (blockWord k 3) = k := by
  apply Vector.ext
  intro n hn
  have hlane (j : Fin 4) (h : n / 4 = j.val) : lane (blockWord k j) (n % 4) = k[n] :=
    lane_blockWord_of_div (n := ⟨n, hn⟩) h
  have hset (y : Block) (j : Fin 4) : (setBlockWord y j (blockWord k j))[n] = if n / 4 = j.val then k[n] else y[n] := by
    refine (getElem_setBlockWord y j (blockWord k j) ⟨n, hn⟩).trans ?_
    split
    next h => exact hlane j h
    next => rfl
  simp only [hset]
  have : n / 4 = 0 ∨ n / 4 = 1 ∨ n / 4 = 2 ∨ n / 4 = 3 := by omega
  rcases this with h | h | h | h <;> simp [h]

/-- The words of a 128-bit number determine it (R39). -/
theorem eq_of_valueWord_eq {x y : Value} (h : ∀ j, valueWord x j = valueWord y j) : x = y := by
  apply BitVec.eq_of_toNat_eq
  have word (j : Fin 4) : x.toNat / 2 ^ (32 * j.val) % 2 ^ 32 = y.toNat / 2 ^ (32 * j.val) % 2 ^ 32 := by
    rw [← valueWord_toNat, ← valueWord_toNat, h j]
  have h0 := word 0
  have h1 := word 1
  have h2 := word 2
  have h3 := word 3
  have hx := x.isLt
  have hy := y.isLt
  simp only [Fin.val_zero, Fin.val_one, Fin.val_two, show ((3 : Fin 4) : Nat) = 3 from rfl] at h0 h1 h2 h3
  omega

/-- Four writes of its words make a 128-bit number (R39). -/
theorem setValueWord_valueWord (x v : Value) :
    setValueWord (setValueWord (setValueWord (setValueWord x 0 (valueWord v 0)) 1 (valueWord v 1)) 2 (valueWord v 2)) 3
      (valueWord v 3) = v := by
  apply eq_of_valueWord_eq
  intro j
  have hset (y : Value) (i : Fin 4) :
      valueWord (setValueWord y i (valueWord v i)) j = if j = i then valueWord v j else valueWord y j := by
    split
    next h => rw [h, valueWord_setValueWord_same]
    next h => exact valueWord_setValueWord_other y h _
  simp only [hset]
  match j with
  | 0 | 1 | 2 | 3 => rfl

/-- A write of both its words makes a descriptor (R40). -/
theorem setDescB_setDescA (d e : Desc) : setDescB (descBWord d) (setDescA (descAWord d) e) = d := by
  have field (w : Word) (a n : Nat) (y : BitVec n) (h : w.toNat / 2 ^ a % 2 ^ n = y.toNat) : w.extractLsb' a n = y := by
    apply BitVec.eq_of_toNat_eq
    rw [BitVec.extractLsb'_toNat, Nat.shiftRight_eq_div_pow, h]
  have hA := descAWord_toNat d
  have hB := descBWord_toNat d
  have hlo := d.lo.isLt; have hhi := d.hi.isLt; have hkind := d.kind.isLt
  have hscale := d.scale.isLt; have hebase := d.ebase.isLt; have hecnt := d.ecnt.isLt
  rw [setDescB, setDescA, field (descAWord d) 0 7 d.lo (by omega), field (descAWord d) 8 7 d.hi (by omega),
    field (descAWord d) 16 3 d.kind (by omega), field (descBWord d) 0 16 d.scale (by omega),
    field (descBWord d) 16 6 d.ebase (by omega), field (descBWord d) 22 7 d.ecnt (by omega)]

/-! ## The lines -/

/-- The words of 16 bytes are those of their block (R111). -/
theorem wordsOf_toList (k : Block) : wordsOf k.toList = (List.finRange 4).map (blockWord k) := by
  have hlen : (k.toList.length + 3) / 4 = 4 := by simp
  have hbyte (n : Nat) (hn : n < 16) : k.toList.getD n 0 = k[n] := by simp [hn]
  rw [wordsOf, hlen, ← List.map_coe_finRange_eq_range, List.map_map]
  refine List.map_congr_left fun j _ => ?_
  have hj := j.isLt
  rw [Function.comp_apply, hbyte _ (by omega), hbyte _ (by omega), hbyte _ (by omega), hbyte _ (by omega), blockWord]

/-- The four key words and KLEN. -/
theorem expand_ldkey (k : Block) :
    expand (.ldkey k) =
      ([(.key 0, blockWord k 0), (.key 1, blockWord k 1), (.key 2, blockWord k 2), (.key 3, blockWord k 3),
        (.klen, 16)] : List (Reg × Word)).map fun p => wrEvent p.1 p.2 := by
  rw [expand, wordsOf_toList]
  rfl

/-- Settles O27: each line is a list of register writes that an idle block accepts one after the other. -/
theorem scriptLinesLoadWhatTheyGive : Obligations.ScriptLinesLoadWhatTheyGive := by
  intro s hb
  refine ⟨fun k => ?_, fun f d => ?_, fun v => ?_⟩
  · rw [expand_ldkey, runEvents_wrEvents hb (by simp)]
    simp only [List.foldl, acceptWrite, writeReg, setAnswer, setBlockWord_blockWord]
    rfl
  · refine (runEvents_wrEvents hb (ps := [(.descA f, descAWord d), (.descB f, descBWord d)]) (by simp)).trans ?_
    simp [acceptWrite, writeReg, setAnswer, setDescB_setDescA]
  · refine (runEvents_wrEvents hb (ps := [(.fdata 0, valueWord v 0), (.fdata 1, valueWord v 1),
      (.fdata 2, valueWord v 2), (.fdata 3, valueWord v 3)]) (by simp)).trans ?_
    simp only [List.foldl, acceptWrite, writeReg, setFdata, setAnswer, setValueWord_valueWord]

end Sys2Proof.EncodingFamily

namespace Sys2Proof.BitfieldFamily

open Sys2Proof.Machine Sys2Proof.Safety Sys2Proof.EncodingFamily

/-! # The kinds of a descriptor (10_state.md R43) -/

theorem kindOf_none {d : Desc} (h : d.kind = 0) : kindOf d = .none := by simp [kindOf, h]

theorem kindOf_flag {d : Desc} (h : d.kind = 1) : kindOf d = .flag := by simp [kindOf, h]

theorem kindOf_numeric {d : Desc} (h : d.kind = 2) : kindOf d = .numeric := by simp [kindOf, h]

theorem kindOf_enum {d : Desc} (h : d.kind = 3) : kindOf d = .enum := by simp [kindOf, h]

theorem kindOf_octets {d : Desc} (h : d.kind = 4) : kindOf d = .octets := by simp [kindOf, h]

theorem kindOf_reserved {d : Desc} (h : d.kind = 5) : kindOf d = .reserved := by simp [kindOf, h]

theorem kindOf_eq_none_iff (d : Desc) : kindOf d = .none ↔ d.kind = 0 := by
  rcases kindOf_cases d with ⟨hk, h⟩ | ⟨hk, h⟩ | ⟨hk, h⟩ | ⟨hk, h⟩ | ⟨hk, h⟩ | ⟨hk, h⟩ | ⟨hk, h⟩
  case inr.inr.inr.inr.inr.inr =>
    refine iff_of_false (by simp [h]) fun h0 => ?_
    simp [h0] at hk
  all_goals simp [h, hk]

theorem kindOf_eq_invalid_iff (d : Desc) : kindOf d = .invalid ↔ 6 ≤ d.kind.toNat := by
  rcases kindOf_cases d with ⟨hk, h⟩ | ⟨hk, h⟩ | ⟨hk, h⟩ | ⟨hk, h⟩ | ⟨hk, h⟩ | ⟨hk, h⟩ | ⟨hk, h⟩ <;> simp [h, hk]

theorem kindOf_eq_enum_iff (d : Desc) : kindOf d = .enum ↔ d.kind = 3 := by
  rcases kindOf_cases d with ⟨hk, h⟩ | ⟨hk, h⟩ | ⟨hk, h⟩ | ⟨hk, h⟩ | ⟨hk, h⟩ | ⟨hk, h⟩ | ⟨hk, h⟩
  case inr.inr.inr.inr.inr.inr =>
    refine iff_of_false (by simp [h]) fun h0 => ?_
    simp [h0] at hk
  all_goals simp [h, hk]

theorem lo_le_hi {d : Desc} (hv : descValid d) (hu : inUse d) : d.lo.toNat ≤ d.hi.toNat := by
  obtain h0 | ⟨-, hlo, -⟩ := hv
  · exact absurd h0 hu
  · exact hlo

theorem inUse_of_carriesValue {d : Desc} (h : carriesValue d) : inUse d := by
  rcases h with h | h | h | h <;> simp [inUse, h]

theorem fieldWidth_le_128 (d : Desc) : fieldWidth d ≤ 128 := by
  have := d.hi.isLt
  unfold fieldWidth
  omega

/-- A valid descriptor is of one of the six kinds of R43. -/
theorem kind_cases_of_descValid {d : Desc} (hv : descValid d) :
    d.kind = 0 ∨ d.kind = 1 ∨ d.kind = 2 ∨ d.kind = 3 ∨ d.kind = 4 ∨ d.kind = 5 := by
  have hnot : ¬6 ≤ d.kind.toNat := by
    obtain h0 | ⟨h5, -⟩ := hv
    · simp [h0]
    · omega
  rcases kindOf_cases d with ⟨hk, -⟩ | ⟨hk, -⟩ | ⟨hk, -⟩ | ⟨hk, -⟩ | ⟨hk, -⟩ | ⟨hk, -⟩ | ⟨hk, -⟩
  case inr.inr.inr.inr.inr.inr => exact absurd hk hnot
  all_goals simp [hk]

theorem kind_of_not_carries {d : Desc} (hd : descValid d) (hc : ¬carriesValue d) : d.kind = 0 ∨ d.kind = 5 := by
  rcases kind_cases_of_descValid hd with hk | hk | hk | hk | hk | hk
  · exact .inl hk
  · exact absurd (.inl hk) hc
  · exact absurd (.inr (.inl hk)) hc
  · exact absurd (.inr (.inr (.inl hk))) hc
  · exact absurd (.inr (.inr (.inr hk))) hc
  · exact .inr hk

/-! # Errors that name a field (R131, R244) -/

theorem toNat_fieldByte (f : Fin 16) : (fieldByte f).toNat = f.val := by
  simp only [fieldByte, BitVec.toNat_ofNat]
  omega

theorem raiseError_fieldByte (code : ErrCode) (sub : Byte) (f : Fin 16) (s : State) :
    raiseError ⟨code, sub, fieldByte f⟩ s = failed s code.number.toNat sub.toNat f.val := by
  rw [raiseError_eq_failed, toNat_fieldByte]

/-! # `check_desc`: the first failing item (R131) -/

theorem checkDesc_of_badKind (f : Fin 16) {d : Desc} (h : 6 ≤ d.kind.toNat) :
    checkDesc f d = .error ⟨.desc, 1, fieldByte f⟩ := by
  simp [checkDesc, (kindOf_eq_invalid_iff d).2 h]

theorem checkDesc_of_badRange (f : Fin 16) {d : Desc} (h1 : 1 ≤ d.kind.toNat) (h5 : d.kind.toNat ≤ 5)
    (hr : d.hi.toNat < d.lo.toNat) : checkDesc f d = .error ⟨.desc, 2, fieldByte f⟩ := by
  have hinvalid : kindOf d ≠ .invalid := by
    rw [ne_eq, kindOf_eq_invalid_iff]
    omega
  have hnone : kindOf d ≠ .none := by
    rw [ne_eq, kindOf_eq_none_iff]
    intro h0
    simp [h0] at h1
  simp [checkDesc, hinvalid, hnone, BitVec.lt_def, hr]

theorem checkDesc_of_badOctets (f : Fin 16) {d : Desc} (hk : d.kind = 4) (hr : d.lo.toNat ≤ d.hi.toNat)
    (hw : fieldWidth d % 8 ≠ 0) : checkDesc f d = .error ⟨.desc, 3, fieldByte f⟩ := by
  simp [checkDesc, kindOf_octets hk, BitVec.lt_def, Nat.not_lt.2 hr, widthOf_eq d hr, hw]

theorem checkDesc_of_badSlice (f : Fin 16) {d : Desc} (hk : d.kind = 3) (hr : d.lo.toNat ≤ d.hi.toNat)
    (hs : 64 < d.ebase.toNat + d.ecnt.toNat) : checkDesc f d = .error ⟨.desc, 4, fieldByte f⟩ := by
  simp [checkDesc, kindOf_enum hk, BitVec.lt_def, Nat.not_lt.2 hr, hs]

theorem code_of_checkDesc_eq_error {f : Fin 16} {d : Desc} {e : CmdError} (h : checkDesc f d = .error e) :
    e.code = .desc := by
  unfold checkDesc at h
  split at h
  · cases h; rfl
  split at h
  · cases h
  split at h
  · cases h; rfl
  split at h
  · cases h; rfl
  split at h
  · cases h; rfl
  · cases h

/-! # `check_table`: the first failing slot (R131) -/

theorem checkOverlap_of_shareBit {desc : Vector Desc 16} {f g : Fin 16} (hg : g < f) (hs : shareBit desc[f] desc[g]) :
    checkOverlap desc f = .error ⟨.desc, 5, fieldByte f⟩ := by
  cases h : checkOverlap desc f with
  | ok u => exact absurd hs ((checkOverlap_eq_ok desc f).1 h g hg)
  | error e => rw [((require_eq_error _ _ e).1 h).2]

/-- A scan of all slots whose checks pass below f ends as the check of f does, when that one fails. -/
theorem checkEach_of_firstFailure {check : Fin 16 → Except CmdError Unit} {f : Fin 16} {e : CmdError}
    (hbelow : ∀ g, g < f → check g = .ok ()) (hf : check f = .error e) :
    checkEach check (List.finRange 16) = .error e := by
  refine (checkEach_eq_error _ _ _).2 ⟨(List.finRange 16).take f, f, (List.finRange 16).drop (f + 1), ?_, ?_, hf⟩
  · have hlen : f.val < (List.finRange 16).length := by simp
    calc List.finRange 16 = (List.finRange 16).take f ++ (List.finRange 16).drop f := (List.take_append_drop _ _).symm
      _ = _ := by rw [List.drop_eq_getElem_cons hlen, List.getElem_finRange]; rfl
  · intro g hg
    obtain ⟨n, hn, rfl⟩ := List.mem_take_iff_getElem.1 hg
    refine hbelow _ (Fin.lt_def.2 ?_)
    simp only [List.getElem_finRange, Fin.val_cast]
    omega

/-- What slot f of the scan answers is what the scan answers, when the lower slots pass and slot f fails. -/
theorem checkTable_of_firstFailure {desc : Vector Desc 16} {f : Fin 16} {e : CmdError}
    (hvalid : ∀ g : Fin 16, g < f → descValid desc[g])
    (hshare : ∀ g h : Fin 16, g < f → h < g → ¬shareBit desc[g] desc[h])
    (hf : (checkDesc f desc[f] >>= fun _ => checkOverlap desc f) = .error e) : checkTable desc = .error e := by
  refine checkEach_of_firstFailure (f := f) (fun g hg => ?_) hf
  rw [(checkDesc_eq_ok g _).2 (hvalid g hg), bind_ok, (checkOverlap_eq_ok desc g).2 (fun h hh => hshare g h hg hh)]

theorem code_of_checkTable_eq_error {desc : Vector Desc 16} {e : CmdError} (h : checkTable desc = .error e) :
    e.code = .desc := by
  obtain ⟨-, f, -, -, -, hf⟩ := (checkEach_eq_error _ _ e).1 h
  rcases (bind_eq_error _ _ e).1 hf with hd | ⟨-, -, ho⟩
  · exact code_of_checkDesc_eq_error hd
  · rw [← ((require_eq_error _ _ e).1 ho).2]

theorem exists_checkTable_error {desc : Vector Desc 16} (h : ¬tableValid desc) : ∃ e, checkTable desc = .error e := by
  cases hc : checkTable desc with
  | ok u => exact absurd ((checkTable_eq_ok desc).1 hc) h
  | error e => exact ⟨e, rfl⟩

/-! # The whole-record commands and the table scan (R135, R136) -/

theorem exec_of_checkTable_error {i : Instr} (hi : i = .bfEncode ∨ i = .bfDecode) {s : State} {e : CmdError}
    (h : checkTable s.desc = .error e) : exec i s = .next (raiseError e s) := by
  rcases hi with rfl | rfl
  · simp only [exec, execBfEncode, h, bind_error, complete_error]
  · simp only [exec, execBfDecode, h, bind_error, complete_error]

/-- The string BF_ENCODE writes over RBUF: the record's bytes, then zeros to the end of RBUF. -/
def encodedBytes (s : State) : List Byte :=
  toBytes s.le (recordWidth s.desc) (rawOfRecord s.desc s.fv) ++ zeroBytes (Config.rbufBytes - recordWidth s.desc)

/-- The buffers after BF_ENCODE. -/
def encodedMem (s : State) : Memory := writeBytes s.mem Config.rbufBase (encodedBytes s)

/-- The state BF_ENCODE leaves on a valid table. -/
def encodedState (s : State) : State :=
  { s with mem := encodedMem s, rlen := BitVec.ofNat 8 (recordWidth s.desc), done := true, busy := false }

theorem exec_bfEncode_of_tableValid {s : State} (h : tableValid s.desc) :
    exec .bfEncode s = .next (encodedState s) := by
  simp only [exec, execBfEncode, (checkTable_eq_ok _).2 h, bind_ok]
  rfl

/-- Settles O47: both commands begin with the table scan, and BF_ENCODE has no other check. -/
theorem invalidTablesAreRefused : Obligations.InvalidTablesAreRefused := by
  intro s t herr ht
  by_cases hv : tableValid s.desc
  · obtain rfl := Host.Outcome.next.inj ((exec_bfEncode_of_tableValid hv).symm.trans ht)
    exact ⟨iff_of_false (by simp [encodedState, herr]) (not_not.2 hv), fun h => absurd hv h⟩
  · obtain ⟨e, he⟩ := exists_checkTable_error hv
    obtain rfl := Host.Outcome.next.inj ((exec_of_checkTable_error (.inl rfl) he).symm.trans ht)
    refine ⟨iff_of_true rfl hv, fun _ => ⟨?_, exec_of_checkTable_error (.inr rfl) he⟩⟩
    simp [code_of_checkTable_eq_error he, ErrCode.number]

/-- Settles O48. -/
theorem tableScanReportsTheFirstFailure : Obligations.TableScanReportsTheFirstFailure := by
  intro s f i hi hvalid hshare d
  have scan : ∀ sub : Byte, (checkDesc f d >>= fun _ => checkOverlap s.desc f) = .error ⟨.desc, sub, fieldByte f⟩ →
      exec i s = .next (failed s 6 sub.toNat f.val) := fun sub hf => by
    rw [exec_of_checkTable_error hi (checkTable_of_firstFailure hvalid hshare hf), raiseError_fieldByte]
    rfl
  refine ⟨fun hk => ?_, fun h1 h5 hr => ?_, fun hk hr hw => ?_, fun hk hr hs => ?_, fun hd ⟨g, hg, hs⟩ => ?_⟩
  · exact scan 1 (by rw [checkDesc_of_badKind f hk, bind_error])
  · exact scan 2 (by rw [checkDesc_of_badRange f h1 h5 hr, bind_error])
  · exact scan 3 (by rw [checkDesc_of_badOctets f hk hr hw, bind_error])
  · exact scan 4 (by rw [checkDesc_of_badSlice f hk hr hs, bind_error])
  · exact scan 5 (by rw [(checkDesc_eq_ok f d).2 hd, bind_ok, checkOverlap_of_shareBit hg hs])

/-! # The record's width (R132) -/

/-- Settles O46. -/
theorem recordWidthOfTheTable : Obligations.RecordWidthOfTheTable := by
  intro desc
  obtain ⟨hall, hmax⟩ := recordBits_spec desc
  simp only [ne_eq, kindOf_eq_none_iff] at hall hmax
  refine ⟨fun hnone => ?_, fun f hf hlargest => ?_, recordWidth_le desc⟩
  · obtain hzero | ⟨f, hf, -⟩ := hmax
    · simp [recordWidth, hzero]
    · exact absurd hf (hnone f)
  · have hle := hall f hf
    obtain hzero | ⟨g, hg, heq⟩ := hmax
    · omega
    · have hge := hlargest g hg
      rw [recordWidth, show recordBits desc = desc[f].hi.toNat + 1 by omega]

/-- Every bit of a field in use lies in the W bytes of the record. -/
theorem lo_add_lt_recordWidth {desc : Vector Desc 16} {f : Fin 16} (h : inUse desc[f]) {b : Nat}
    (hb : b < fieldWidth desc[f]) : desc[f].lo.toNat + b < 8 * recordWidth desc := by
  have hle := (recordBits_spec desc).1 f (mt (kindOf_eq_none_iff _).1 h)
  unfold fieldWidth at hb
  unfold recordWidth
  omega

/-! # The single-field commands (R131, R139 to R144) -/

/-- What BF_SET, BF_GET, BF_TEST and BF_ECHK share: F is checked, then the descriptor it names, then the command's own
rule goes on. -/
def fieldCommand (b : Byte) (s : State) (rule : Fin 16 → Except CmdError State) : Host.Outcome State Fault Refusal :=
  complete s (fieldOperand b >>= fun f => checkDesc f s.desc[f] >>= fun _ => rule f)

theorem exec_bfSet (b : Byte) (s : State) :
    exec (.bfSet b) s = fieldCommand b s fun f =>
      checkSetter s.etab f s.desc[f] s.fdata >>= fun _ => .ok (setFv f s.fdata s) := rfl

theorem exec_bfGet (b : Byte) (s : State) :
    exec (.bfGet b) s = fieldCommand b s fun f =>
      require (kindOf s.desc[f] != .none) ⟨.desc, 6, fieldByte f⟩ >>= fun _ =>
        .ok (setFdata (if kindOf s.desc[f] = .reserved then 0 else s.fv[f]) s) := rfl

theorem exec_bfTest (b k : Byte) (s : State) :
    exec (.bfTest b k) s = fieldCommand b s fun f =>
      require (kindOf s.desc[f] == .enum) ⟨.desc, 6, fieldByte f⟩ >>= fun _ =>
        require (decide (k.toNat < s.desc[f].ecnt.toNat)) ⟨.desc, 6, fieldByte f⟩ >>= fun _ =>
          .ok (setT (enumMember s.etab s.desc[f] k.toNat == some s.fv[f]) s) := rfl

theorem exec_bfEchk (b : Byte) (s : State) :
    exec (.bfEchk b) s = fieldCommand b s fun f =>
      require (kindOf s.desc[f] == .enum) ⟨.desc, 6, fieldByte f⟩ >>= fun _ =>
        require (isMember s.etab s.desc[f] s.fv[f]) ⟨.format, 2, fieldByte f⟩ >>= fun _ => .ok s := rfl

theorem exec_eq_fieldCommand {b k : Byte} {i : Instr} (hi : i ∈ [Instr.bfSet b, .bfGet b, .bfTest b k, .bfEchk b])
    (s : State) : ∃ rule, exec i s = fieldCommand b s rule := by
  simp only [List.mem_cons, List.not_mem_nil, or_false] at hi
  rcases hi with rfl | rfl | rfl | rfl
  · exact ⟨_, exec_bfSet b s⟩
  · exact ⟨_, exec_bfGet b s⟩
  · exact ⟨_, exec_bfTest b k s⟩
  · exact ⟨_, exec_bfEchk b s⟩

section FieldCommand

variable {s : State} {b : Byte} {f : Fin 16} {rule : Fin 16 → Except CmdError State}

theorem fieldCommand_of_badIndex (hb : 16 ≤ b.toNat) : fieldCommand b s rule = .next (failed s 5 3 b.toNat) := by
  rw [fieldCommand, fieldOperand_of_le b hb, bind_error, complete_error, raiseError_eq_failed]
  rfl

theorem fieldOperand_eq_ok (hb : f.val = b.toNat) : fieldOperand b = .ok f := by
  rw [fieldOperand_of_lt b (by omega)]
  exact congrArg _ (Fin.ext hb.symm)

theorem fieldCommand_of_badDesc {sub : Byte} (hb : f.val = b.toNat)
    (hd : checkDesc f s.desc[f] = .error ⟨.desc, sub, fieldByte f⟩) :
    fieldCommand b s rule = .next (failed s 6 sub.toNat f.val) := by
  rw [fieldCommand, fieldOperand_eq_ok hb, bind_ok, hd, bind_error, complete_error, raiseError_fieldByte]
  rfl

/-- On a valid descriptor a field command is its own rule. -/
theorem fieldCommand_of_descValid (hd : descValid s.desc[f]) :
    fieldCommand (BitVec.ofNat 8 f.val) s rule = complete s (rule f) := by
  have hf : fieldOperand (BitVec.ofNat 8 f.val) = .ok f := fieldOperand_eq_ok (toNat_fieldByte f).symm
  rw [fieldCommand, hf, bind_ok, (checkDesc_eq_ok f _).2 hd, bind_ok]

/-- A rule whose check of the field raises. -/
theorem complete_of_fieldError {r : Except CmdError State} {code : ErrCode} {sub : Byte}
    (h : r = .error ⟨code, sub, fieldByte f⟩) :
    complete s r = .next (failed s code.number.toNat sub.toNat f.val) := by
  rw [h, complete_error, raiseError_fieldByte]

end FieldCommand

/-- Settles O49. -/
theorem fieldCommandsCheckTheirDescriptor : Obligations.FieldCommandsCheckTheirDescriptor := by
  intro s b k i hi
  obtain ⟨rule, hrule⟩ := exec_eq_fieldCommand hi s
  rw [hrule]
  refine ⟨fieldCommand_of_badIndex, fun f hb => ?_⟩
  refine ⟨fun hk => ?_, fun h1 h5 hr => ?_, fun hk hr hw => ?_, fun hk hr hs => ?_⟩
  · exact fieldCommand_of_badDesc hb (checkDesc_of_badKind f hk)
  · exact fieldCommand_of_badDesc hb (checkDesc_of_badRange f h1 h5 hr)
  · exact fieldCommand_of_badDesc hb (checkDesc_of_badOctets f hk hr hw)
  · exact fieldCommand_of_badDesc hb (checkDesc_of_badSlice f hk hr hs)

/-! ## Checks whose condition is known -/

theorem require_of {c : Bool} {e : CmdError} (h : c = true) : require c e = .ok () := (require_eq_ok c e).2 h

theorem require_of_not {c : Bool} {e : CmdError} (h : ¬c = true) : require c e = .error e :=
  (require_eq_error c e e).2 ⟨Bool.eq_false_iff.2 h, rfl⟩

theorem require_decide {p : Prop} [Decidable p] {e : CmdError} (h : p) : require (decide p) e = .ok () :=
  require_of (decide_eq_true h)

theorem require_decide_of_not {p : Prop} [Decidable p] {e : CmdError} (h : ¬p) : require (decide p) e = .error e :=
  require_of_not (mt of_decide_eq_true h)

theorem requireEnum {d : Desc} {e : CmdError} (hk : d.kind = 3) : require (kindOf d == .enum) e = .ok () :=
  require_of (beq_iff_eq.2 (kindOf_enum hk))

theorem requireEnum_of_ne {d : Desc} {e : CmdError} (hk : d.kind ≠ 3) : require (kindOf d == .enum) e = .error e :=
  require_of_not fun h => hk ((kindOf_eq_enum_iff d).1 (beq_iff_eq.1 h))

theorem requireUsed {d : Desc} {e : CmdError} (hu : inUse d) : require (kindOf d != .none) e = .ok () :=
  require_of (bne_iff_ne.2 (mt (kindOf_eq_none_iff d).1 hu))

theorem requireUsed_of_none {d : Desc} {e : CmdError} (hk : d.kind = 0) :
    require (kindOf d != .none) e = .error e :=
  require_of_not fun h => bne_iff_ne.1 h (kindOf_none hk)

/-! ## BF_SET (R139) -/

/-- `member(f, v)` as the model computes it, on a valid descriptor of an ENUM field. -/
theorem isMember_iff {d : Desc} (hd : descValid d) (hk : d.kind = 3) (etab : Vector Word 64) (v : Value) :
    isMember etab d v = true ↔ memberOf etab d v := by
  obtain h0 | ⟨-, -, -, hslice⟩ := hd
  · simp [hk] at h0
  · exact isMember_eq etab d v (hslice hk)

section Setter

variable {etab : Vector Word 64} {f : Fin 16} {d : Desc} {v : Value}

theorem checkSetter_none (hk : d.kind = 0 ∨ d.kind = 5) :
    checkSetter etab f d v = .error ⟨.desc, 6, fieldByte f⟩ := by
  rcases hk with hk | hk
  · simp only [checkSetter, kindOf_none hk]
  · simp only [checkSetter, kindOf_reserved hk]

theorem checkSetter_flag (hk : d.kind = 1) :
    checkSetter etab f d v = require (decide (v.toNat ≤ 1)) ⟨.range, 1, fieldByte f⟩ := by
  simp only [checkSetter, kindOf_flag hk]

theorem checkSetter_numeric (hk : d.kind = 2) (hr : d.lo.toNat ≤ d.hi.toNat) :
    checkSetter etab f d v =
      require (decide (v.toNat * scaleFactor d < 2 ^ fieldWidth d)) ⟨.range, 2, fieldByte f⟩ := by
  simp only [checkSetter, kindOf_numeric hk, bitlen_le_iff, widthOf_eq d hr, scaleOf_eq]

theorem checkSetter_enum (hk : d.kind = 3) (hr : d.lo.toNat ≤ d.hi.toNat) :
    checkSetter etab f d v = require (isMember etab d v) ⟨.invalidValue, 1, fieldByte f⟩ >>= fun _ =>
      require (decide (v.toNat < 2 ^ fieldWidth d)) ⟨.range, 4, fieldByte f⟩ := by
  simp only [checkSetter, kindOf_enum hk, bitlen_le_iff, widthOf_eq d hr]

theorem checkSetter_octets (hk : d.kind = 4) (hr : d.lo.toNat ≤ d.hi.toNat) :
    checkSetter etab f d v = require (decide (v.toNat < 2 ^ fieldWidth d)) ⟨.range, 3, fieldByte f⟩ := by
  simp only [checkSetter, kindOf_octets hk, bitlen_le_iff, widthOf_eq d hr]

end Setter

theorem exec_bfSet_of_taken {s : State} {f : Fin 16} (hd : descValid s.desc[f])
    (h : checkSetter s.etab f s.desc[f] s.fdata = .ok ()) :
    exec (.bfSet (BitVec.ofNat 8 f.val)) s =
      .next { s with fv := s.fv.set f.val s.fdata f.isLt, done := true, busy := false } := by
  rw [exec_bfSet, fieldCommand_of_descValid hd, h, bind_ok, complete_ok]
  rfl

theorem exec_bfSet_of_refused {s : State} {f : Fin 16} (hd : descValid s.desc[f]) {code : ErrCode} {sub : Byte}
    (h : checkSetter s.etab f s.desc[f] s.fdata = .error ⟨code, sub, fieldByte f⟩) :
    exec (.bfSet (BitVec.ofNat 8 f.val)) s = .next (failed s code.number.toNat sub.toNat f.val) := by
  rw [exec_bfSet, fieldCommand_of_descValid hd]
  exact complete_of_fieldError (by rw [h, bind_error])

/-- Settles O56: the setter's test by kind, and what follows from its outcome. -/
theorem bfSetValidatesByKind : Obligations.BfSetValidatesByKind := by
  intro s f hd d v run stored
  have taken : checkSetter s.etab f d s.fdata = .ok () → run = .next stored := exec_bfSet_of_taken hd
  have refused (code : ErrCode) (sub : Byte) (h : checkSetter s.etab f d s.fdata = .error ⟨code, sub, fieldByte f⟩) :
      run = .next (failed s code.number.toNat sub.toNat f.val) := exec_bfSet_of_refused hd h
  have range {k : BitVec 3} (hk : d.kind = k) (h0 : k ≠ 0) : d.lo.toNat ≤ d.hi.toNat := lo_le_hi hd (by rwa [inUse, hk])
  refine ⟨fun hk => refused .desc 6 (checkSetter_none hk), fun hk h => taken ?_, fun hk h => refused .range 1 ?_,
    fun hk h => taken ?_, fun hk h => refused .range 2 ?_, fun hk h => refused .invalidValue 1 ?_,
    fun hk hm h => refused .range 4 ?_, fun hk hm h => taken ?_, fun hk h => taken ?_, fun hk h => refused .range 3 ?_⟩
  · rw [checkSetter_flag hk, require_decide h]
  · rw [checkSetter_flag hk, require_decide_of_not (Nat.not_le.2 h)]
  · rw [checkSetter_numeric hk (range hk (by decide)), require_decide h]
  · rw [checkSetter_numeric hk (range hk (by decide)), require_decide_of_not (Nat.not_lt.2 h)]
  · rw [checkSetter_enum hk (range hk (by decide)), require_of_not (mt (isMember_iff hd hk _ _).1 h), bind_error]
  · rw [checkSetter_enum hk (range hk (by decide)), require_of ((isMember_iff hd hk _ _).2 hm), bind_ok,
      require_decide_of_not (Nat.not_lt.2 h)]
  · rw [checkSetter_enum hk (range hk (by decide)), require_of ((isMember_iff hd hk _ _).2 hm), bind_ok,
      require_decide h]
  · rw [checkSetter_octets hk (range hk (by decide)), require_decide h]
  · rw [checkSetter_octets hk (range hk (by decide)), require_decide_of_not (Nat.not_lt.2 h)]

/-! ## BF_GET, BF_TEST and BF_ECHK (R142 to R144) -/

theorem exec_bfGet_of_inUse {s : State} {f : Fin 16} (hd : descValid s.desc[f]) (hu : inUse s.desc[f]) :
    exec (.bfGet (BitVec.ofNat 8 f.val)) s =
      .next { s with fdata := if kindOf s.desc[f] = .reserved then 0 else s.fv[f], done := true, busy := false } := by
  rw [exec_bfGet, fieldCommand_of_descValid hd, requireUsed hu, bind_ok, complete_ok]
  rfl

theorem kindOf_ne_reserved {d : Desc} (h : carriesValue d) : kindOf d ≠ .reserved := by
  rcases h with h | h | h | h
  · simp [kindOf_flag h]
  · simp [kindOf_numeric h]
  · simp [kindOf_enum h]
  · simp [kindOf_octets h]

/-- Settles O57. -/
theorem bfGetReadsTheField : Obligations.BfGetReadsTheField := by
  intro s f hd run
  have hrun : run = complete s _ := (exec_bfGet _ s).trans (fieldCommand_of_descValid hd)
  refine ⟨fun hk => ?_, fun hk => ?_, fun hk => ?_⟩
  · refine hrun.trans (complete_of_fieldError (code := .desc) (sub := 6) ?_)
    rw [requireUsed_of_none hk, bind_error]
  · have hu : inUse s.desc[f] := by rw [inUse, hk]; decide
    exact (exec_bfGet_of_inUse hd hu).trans (by rw [if_pos (kindOf_reserved hk)])
  · exact (exec_bfGet_of_inUse hd (inUse_of_carriesValue hk)).trans (by rw [if_neg (kindOf_ne_reserved hk)])

theorem enumMember_of_lt (etab : Vector Word 64) {d : Desc} {k : Nat} {n : Fin 64} (hn : n.val = d.ebase.toNat + k) :
    enumMember etab d k = some (etab[n].setWidth 128) := by
  simp [enumMember, ← hn]

/-- Settles O58. -/
theorem bfTestComparesWithTheMember : Obligations.BfTestComparesWithTheMember := by
  intro s f k hd d run
  have hrun : run = complete s _ := (exec_bfTest _ k s).trans (fieldCommand_of_descValid hd)
  refine ⟨fun hk => ?_, fun hk hle => ?_, fun hk hlt n hn => ?_⟩
  · refine hrun.trans (complete_of_fieldError (code := .desc) (sub := 6) ?_)
    rw [requireEnum_of_ne hk, bind_error]
  · refine hrun.trans (complete_of_fieldError (code := .desc) (sub := 6) ?_)
    rw [requireEnum hk, bind_ok, require_decide_of_not (Nat.not_lt.2 hle), bind_error]
  · have heq : (some (s.etab[n].setWidth 128) == some s.fv[f]) = decide (s.fv[f] = s.etab[n].setWidth 128) := by
      rw [Bool.eq_iff_iff, beq_iff_eq, Option.some_inj, decide_eq_true_eq, eq_comm]
    refine hrun.trans ?_
    rw [requireEnum hk, bind_ok, require_decide hlt, bind_ok, complete_ok, enumMember_of_lt s.etab hn, heq]
    rfl

/-- Settles O59. -/
theorem bfEchkChecksMembership : Obligations.BfEchkChecksMembership := by
  intro s f hd run
  have hrun : run = complete s _ := (exec_bfEchk _ s).trans (fieldCommand_of_descValid hd)
  refine ⟨fun hk => ?_, fun hk hm => ?_, fun hk hm => ?_⟩
  · refine hrun.trans (complete_of_fieldError (code := .desc) (sub := 6) ?_)
    rw [requireEnum_of_ne hk, bind_error]
  · refine hrun.trans (complete_of_fieldError (code := .format) (sub := 2) ?_)
    rw [requireEnum hk, bind_ok, require_of_not (mt (isMember_iff hd hk _ _).1 hm), bind_error]
  · refine hrun.trans ?_
    rw [requireEnum hk, bind_ok, require_of ((isMember_iff hd hk _ _).2 hm), bind_ok, complete_ok]
    rfl

/-! ## BF_CLR (R145) -/

/-- Settles O60. -/
theorem bfClrZeroesEveryValue : Obligations.BfClrZeroesEveryValue := fun _ =>
  ⟨Vector.replicate 16 0, fun _ => by simp, rfl⟩

/-! # The raw integer of a record (R134, R135) -/

theorem testBit_foldl_or {α : Type} (g : α → Nat) (fs : List α) (init n : Nat) :
    (fs.foldl (fun raw f => raw ||| g f) init).testBit n = (init.testBit n || fs.any fun f => (g f).testBit n) := by
  induction fs generalizing init with
  | nil => simp
  | cons f fs ih => simp [ih, Nat.testBit_or, Bool.or_assoc]

theorem testBit_rawOfRecord (desc : Vector Desc 16) (fv : Vector Value 16) (n : Nat) :
    (rawOfRecord desc fv).testBit n = true ↔
      ∃ f : Fin 16, desc[f].lo.toNat ≤ n ∧ (fieldBits desc[f] fv[f]).testBit (n - desc[f].lo.toNat) = true := by
  rw [rawOfRecord, testBit_foldl_or, Nat.zero_testBit, Bool.false_or, List.any_eq_true]
  simp only [List.mem_finRange, true_and, Nat.testBit_shiftLeft, Bool.and_eq_true, decide_eq_true_eq, ge_iff_le]

theorem fieldBits_flag {d : Desc} (hk : d.kind = 1) (v : Value) : fieldBits d v = if v = 0 then 0 else 1 := by
  simp only [fieldBits, kindOf_flag hk]

theorem fieldBits_numeric {d : Desc} (hk : d.kind = 2) (hr : d.lo.toNat ≤ d.hi.toNat) (v : Value) :
    fieldBits d v = v.toNat * scaleFactor d % 2 ^ fieldWidth d := by
  simp only [fieldBits, kindOf_numeric hk, scaleOf_eq, widthOf_eq d hr]

theorem fieldBits_stored {d : Desc} (hk : d.kind = 3 ∨ d.kind = 4) (hr : d.lo.toNat ≤ d.hi.toNat) (v : Value) :
    fieldBits d v = v.toNat % 2 ^ fieldWidth d := by
  rcases hk with hk | hk
  · simp only [fieldBits, kindOf_enum hk, widthOf_eq d hr]
  · simp only [fieldBits, kindOf_octets hk, widthOf_eq d hr]

theorem fieldBits_eq_zero {d : Desc} (hd : descValid d) (hc : ¬carriesValue d) (v : Value) : fieldBits d v = 0 := by
  rcases kind_of_not_carries hd hc with hk | hk
  · simp only [fieldBits, kindOf_none hk]
  · simp only [fieldBits, kindOf_reserved hk]

/-- The bits of a field fit its width. -/
theorem fieldBits_lt {d : Desc} (hr : d.lo.toNat ≤ d.hi.toNat) (hc : carriesValue d) (v : Value) :
    fieldBits d v < 2 ^ fieldWidth d := by
  have hpos : 0 < 2 ^ fieldWidth d := Nat.two_pow_pos _
  rcases hc with hk | hk | hk
  · have hone : 1 < 2 ^ fieldWidth d := Nat.one_lt_two_pow (by unfold fieldWidth; omega)
    rw [fieldBits_flag hk]
    split <;> omega
  · rw [fieldBits_numeric hk hr]
    exact Nat.mod_lt _ hpos
  · rw [fieldBits_stored hk hr]
    exact Nat.mod_lt _ hpos

/-- A bit that a field sets belongs to a field that carries a value, and lies in its width. -/
theorem carries_of_testBit_fieldBits {d : Desc} (hd : descValid d) {v : Value} {b : Nat}
    (h : (fieldBits d v).testBit b = true) : carriesValue d ∧ b < fieldWidth d := by
  have hc : carriesValue d := by
    by_contra hc
    simp [fieldBits_eq_zero hd hc] at h
  refine ⟨hc, ?_⟩
  by_contra hb
  have hlt := fieldBits_lt (lo_le_hi hd (inUse_of_carriesValue hc)) hc v
  rw [Nat.testBit_lt_two_pow (hlt.trans_le (Nat.pow_le_pow_right (by decide) (Nat.not_lt.1 hb)))] at h
  cases h

theorem shareBit_comm {d e : Desc} (h : shareBit d e) : shareBit e d := by
  obtain ⟨hd, he, hed, hde⟩ := h
  exact ⟨he, hd, hde, hed⟩

/-- Two slots of a valid table that share a bit are one. -/
theorem eq_of_shareBit {desc : Vector Desc 16} (ht : tableValid desc) {f g : Fin 16}
    (h : shareBit desc[f] desc[g]) : f = g := by
  rcases lt_trichotomy f g with hlt | heq | hgt
  · exact absurd (shareBit_comm h) (ht.2 g f hlt)
  · exact heq
  · exact absurd h (ht.2 f g hgt)

/-- The bits of the raw integer that a field covers are the field's own. -/
theorem testBit_rawOfRecord_field {desc : Vector Desc 16} (ht : tableValid desc) (fv : Vector Value 16) {f : Fin 16}
    (hc : carriesValue desc[f]) {b : Nat} (hb : b < fieldWidth desc[f]) :
    (rawOfRecord desc fv).testBit (desc[f].lo.toNat + b) = (fieldBits desc[f] fv[f]).testBit b := by
  rw [Bool.eq_iff_iff, testBit_rawOfRecord]
  constructor
  · rintro ⟨g, hlo, hg⟩
    obtain ⟨hcg, hbg⟩ := carries_of_testBit_fieldBits (ht.1 g) hg
    have hshare : shareBit desc[f] desc[g] := by
      refine ⟨inUse_of_carriesValue hc, inUse_of_carriesValue hcg, ?_, ?_⟩ <;> unfold fieldWidth at hb hbg <;> omega
    obtain rfl := eq_of_shareBit ht hshare
    simpa using hg
  · intro h
    exact ⟨f, Nat.le_add_right _ _, by simpa using h⟩

/-- A bit of the raw integer that no field carrying a value covers is 0. -/
theorem testBit_rawOfRecord_uncovered {desc : Vector Desc 16} (ht : tableValid desc) (fv : Vector Value 16) {b : Nat}
    (hb : ∀ f : Fin 16, carriesValue desc[f] → b < desc[f].lo.toNat ∨ desc[f].hi.toNat < b) :
    (rawOfRecord desc fv).testBit b = false := by
  rw [← Bool.not_eq_true, testBit_rawOfRecord]
  rintro ⟨f, hlo, hf⟩
  obtain ⟨hc, hw⟩ := carries_of_testBit_fieldBits (ht.1 f) hf
  have := hb f hc
  unfold fieldWidth at hw
  omega

/-- A masked value keeps its bits below the width. -/
theorem testBit_fieldBits {d : Desc} (hr : d.lo.toNat ≤ d.hi.toNat) (hc : carriesValue d) (v : Value) {b : Nat}
    (hb : b < fieldWidth d) :
    (fieldBits d v).testBit b =
      if d.kind = 1 then decide (b = 0 ∧ v ≠ 0)
      else if d.kind = 2 then (v.toNat * scaleFactor d).testBit b
      else v.toNat.testBit b := by
  rcases hc with hk | hk | hk
  · rw [fieldBits_flag hk, if_pos hk]
    split
    next h0 => simp [h0]
    next h0 => rw [Bool.eq_iff_iff, Nat.testBit_one_eq_true_iff_self_eq_zero, decide_eq_true_eq, and_iff_left h0]
  · rw [fieldBits_numeric hk hr, if_neg (by rw [hk]; decide), if_pos hk, Nat.testBit_mod_two_pow, decide_eq_true hb,
      Bool.true_and]
  · have hne : d.kind ≠ 1 ∧ d.kind ≠ 2 := by rcases hk with hk | hk <;> rw [hk] <;> decide
    rw [fieldBits_stored hk hr, if_neg hne.1, if_neg hne.2, Nat.testBit_mod_two_pow, decide_eq_true hb, Bool.true_and]

/-- Settles O50. -/
theorem rawIntegerBitByBit : Obligations.RawIntegerBitByBit := by
  refine fun desc fv ht => ⟨fun f b hc hb => ?_, fun b => testBit_rawOfRecord_uncovered ht fv⟩
  rw [testBit_rawOfRecord_field ht fv hc hb,
    testBit_fieldBits (lo_le_hi (ht.1 f) (inUse_of_carriesValue hc)) hc fv[f] hb]

/-! # The record's bytes (R133) -/

/-- Bit b of the integer that W bytes hold lies in the byte of R133. -/
theorem testBit_fromBytes (le : Bool) (bs : List Byte) {b : Nat} (hb : b < 8 * bs.length) :
    (fromBytes le bs).testBit b =
      (bs[byteOfBit le bs.length b]'(by unfold byteOfBit; split <;> omega)).getLsbD (b % 8) := by
  cases le with
  | false => exact intBe_testBit bs b (by omega)
  | true =>
    have hlt : b / 8 < bs.reverse.length := by
      rw [List.length_reverse]
      omega
    have hidx : bs.length - 1 - (bs.length - 1 - b / 8) = b / 8 := by omega
    simp only [fromBytes, if_true, intBe_testBit bs.reverse b hlt, List.length_reverse, List.getElem_reverse, hidx,
      byteOfBit]

/-- The raw integer that RBUF holds for the table's record (R133, R136). -/
def rawInRbuf (s : State) : Nat := fromBytes s.le (recordBytes s)

theorem testBit_fromBytes_rbuf (s : State) {w b : Nat} (hb : b < 8 * w) :
    (fromBytes s.le (readBytes s.mem Config.rbufBase w)).testBit b = rbufBit s w b := by
  rw [testBit_fromBytes s.le _ (by simpa using hb), readBytes_getElem, readBytes_length]

theorem testBit_rawInRbuf (s : State) {b : Nat} (hb : b < 8 * recordWidth s.desc) :
    (rawInRbuf s).testBit b = rbufBit s (recordWidth s.desc) b := testBit_fromBytes_rbuf s hb

/-! # BF_ENCODE (R135) -/

theorem encodedBytes_length (s : State) : (encodedBytes s).length = 16 := by
  have := recordWidth_le s.desc
  simp only [encodedBytes, List.length_append, toBytes_length, zeroBytes, List.length_replicate, Config.rbufBytes]
  omega

theorem readByte_encodedMem {s : State} (hm : Memory.wf s.mem = true) {k : Nat} (hk : k < 16) :
    readByte (encodedMem s) (0x080 + k) = (encodedBytes s)[k]'(by rwa [encodedBytes_length]) :=
  readByte_writeBytes_inside (encodedBytes s) s.mem _ k hm _

theorem readBytes_encodedMem {s : State} (hm : Memory.wf s.mem = true) :
    readBytes (encodedMem s) Config.rbufBase (recordWidth s.desc) =
      toBytes s.le (recordWidth s.desc) (rawOfRecord s.desc s.fv) := by
  have hw := recordWidth_le s.desc
  refine List.ext_getElem (by rw [readBytes_length, toBytes_length]) fun k h1 h2 => ?_
  rw [toBytes_length] at h2
  rw [readBytes_getElem]
  refine (readByte_encodedMem hm (by omega)).trans ?_
  exact List.getElem_append_left (by rwa [toBytes_length])

theorem rbufBit_encodedMem {s : State} (hm : Memory.wf s.mem = true) {b : Nat} (hb : b < 8 * recordWidth s.desc) :
    rbufBit { s with mem := encodedMem s } (recordWidth s.desc) b = (rawOfRecord s.desc s.fv).testBit b := by
  have hpow : (256 : Nat) ^ recordWidth s.desc = 2 ^ (8 * recordWidth s.desc) := by rw [Nat.pow_mul]
  rw [← testBit_fromBytes_rbuf { s with mem := encodedMem s } hb, readBytes_encodedMem hm, fromBytes_toBytes, hpow,
    Nat.testBit_mod_two_pow, decide_eq_true hb, Bool.true_and]

theorem readByte_encodedMem_of_le {s : State} (hm : Memory.wf s.mem = true) {k : Nat} (hw : recordWidth s.desc ≤ k)
    (hk : k < 16) : readByte (encodedMem s) (0x080 + k) = 0 := by
  rw [readByte_encodedMem hm hk]
  exact (List.getElem_append_right (by rwa [toBytes_length])).trans (List.getElem_replicate _)

/-- Settles O51. -/
theorem bfEncodePacksTheRecord : Obligations.BfEncodePacksTheRecord := by
  intro s hm ht w
  refine ⟨encodedMem s, exec_bfEncode_of_tableValid ht, fun b => rbufBit_encodedMem hm, fun k =>
    readByte_encodedMem_of_le hm, fun x hx => ?_⟩
  exact readByte_writeBytes_outside (encodedBytes s) s.mem _ x (by rwa [encodedBytes_length])

/-! # The bits of each field in RBUF (R134) -/

/-- The bits x of slot f in the raw integer that RBUF holds. -/
def storedBits (s : State) (f : Fin 16) : Nat := extractBits s.desc[f] (rawInRbuf s)

theorem rbufField_storedBits {s : State} {f : Fin 16} (hd : descValid s.desc[f]) (hu : inUse s.desc[f]) :
    rbufField s (recordWidth s.desc) s.desc[f] (storedBits s f) := by
  have hr := lo_le_hi hd hu
  rw [storedBits, extractBits, widthOf_eq _ hr]
  refine ⟨Nat.mod_lt _ (Nat.two_pow_pos _), fun b hb => ?_⟩
  rw [Nat.testBit_mod_two_pow, decide_eq_true hb, Bool.true_and, Nat.testBit_shiftRight]
  exact testBit_rawInRbuf s (lo_add_lt_recordWidth hu hb)

/-- The bits of a field are one number. -/
theorem rbufField_unique {s : State} {w : Nat} {d : Desc} {x y : Nat} (hx : rbufField s w d x)
    (hy : rbufField s w d y) : x = y := by
  obtain ⟨hxlt, hxbit⟩ := hx
  obtain ⟨hylt, hybit⟩ := hy
  refine Nat.eq_of_testBit_eq fun b => ?_
  by_cases hb : b < fieldWidth d
  · rw [hxbit b hb, hybit b hb]
  · have hpow : 2 ^ fieldWidth d ≤ 2 ^ b := Nat.pow_le_pow_right (by decide) (Nat.not_lt.1 hb)
    rw [Nat.testBit_lt_two_pow (hxlt.trans_le hpow), Nat.testBit_lt_two_pow (hylt.trans_le hpow)]

theorem eq_storedBits {s : State} (ht : tableValid s.desc) {f : Fin 16} (hc : carriesValue s.desc[f]) {x : Nat}
    (hx : rbufField s (recordWidth s.desc) s.desc[f] x) : x = storedBits s f :=
  rbufField_unique hx (rbufField_storedBits (ht.1 f) (inUse_of_carriesValue hc))

/-! # What BF_DECODE asks of a field's bits (R136) -/

section Decodable

variable {s : State} {f : Fin 16} {d : Desc} {x : Nat}

theorem decodable_of_kind_ne (h2 : d.kind ≠ 2) (h3 : d.kind ≠ 3) : decodable s d x :=
  ⟨fun hk => absurd hk h2, fun hk => absurd hk h3⟩

theorem decodable_of_not_carries (hc : ¬carriesValue d) : decodable s d x :=
  decodable_of_kind_ne (fun h => hc (.inr (.inl h))) fun h => hc (.inr (.inr (.inl h)))

theorem checkBits_numeric (hk : d.kind = 2) :
    checkBits s.etab s.strict f d x = require (decide (decodable s d x)) ⟨.format, 3, fieldByte f⟩ := by
  have h3 : d.kind ≠ 3 := by rw [hk]; decide
  have hiff : (x % scaleFactor d == 0) = decide (decodable s d x) := by
    rw [Bool.eq_iff_iff, beq_iff_eq, decide_eq_true_eq]
    exact ⟨fun h => ⟨fun _ => h, fun h' => absurd h' h3⟩, fun h => h.1 hk⟩
  simp only [checkBits, kindOf_numeric hk, scaleOf_eq, hiff]

theorem checkBits_enum (hd : descValid d) (hk : d.kind = 3) :
    checkBits s.etab s.strict f d x = require (decide (decodable s d x)) ⟨.format, 2, fieldByte f⟩ := by
  have h2 : d.kind ≠ 2 := by rw [hk]; decide
  have hiff : (!s.strict || isMember s.etab d (BitVec.ofNat 128 x)) = decide (decodable s d x) := by
    rw [Bool.eq_iff_iff, Bool.or_eq_true, Bool.not_eq_true', isMember_iff hd hk, decide_eq_true_eq]
    constructor
    · rintro (hs | hm)
      · exact ⟨fun h => absurd h h2, fun _ hs' => absurd hs' (by simp [hs])⟩
      · exact ⟨fun h => absurd h h2, fun _ _ => hm⟩
    · intro h
      cases hs : s.strict with
      | false => exact .inl rfl
      | true => exact .inr (h.2 hk hs)
  simp only [checkBits, kindOf_enum hk, hiff]

/-- On a valid descriptor the check of a field's bits is `decodable`, with the error of its kind. -/
theorem checkBits_eq (hd : descValid d) :
    checkBits s.etab s.strict f d x =
      require (decide (decodable s d x)) ⟨.format, if d.kind = 2 then 3 else 2, fieldByte f⟩ := by
  have passes (h2 : d.kind ≠ 2) (h3 : d.kind ≠ 3) (h : checkBits s.etab s.strict f d x = .ok ()) :
      checkBits s.etab s.strict f d x =
        require (decide (decodable s d x)) ⟨.format, if d.kind = 2 then 3 else 2, fieldByte f⟩ := by
    rw [h, require_decide (decodable_of_kind_ne h2 h3)]
  rcases kind_cases_of_descValid hd with hk | hk | hk | hk | hk | hk
  · exact passes (by rw [hk]; decide) (by rw [hk]; decide) (by simp only [checkBits, kindOf_none hk])
  · exact passes (by rw [hk]; decide) (by rw [hk]; decide) (by simp only [checkBits, kindOf_flag hk])
  · rw [checkBits_numeric hk, if_pos hk]
  · rw [checkBits_enum hd hk, if_neg (by rw [hk]; decide)]
  · exact passes (by rw [hk]; decide) (by rw [hk]; decide) (by simp only [checkBits, kindOf_octets hk])
  · exact passes (by rw [hk]; decide) (by rw [hk]; decide) (by simp only [checkBits, kindOf_reserved hk])

end Decodable

/-! # BF_DECODE (R136) -/

/-- The values BF_DECODE gives. -/
def decodedValues (s : State) : Vector Value 16 := Vector.ofFn fun f => fieldValue s.desc[f] (storedBits s f)

/-- The state BF_DECODE leaves when it succeeds. -/
def decodedState (s : State) : State := { s with fv := decodedValues s, done := true, busy := false }

/-- BF_DECODE on a valid table: the length of the record, then the bits of every field, then the values. -/
theorem exec_bfDecode_of_tableValid {s : State} (ht : tableValid s.desc) :
    exec .bfDecode s = complete s
      (require (decide (recordWidth s.desc ≤ s.rlen.toNat)) ⟨.format, 1, noField⟩ >>= fun _ =>
        checkEach (fun f => checkBits s.etab s.strict f s.desc[f] (storedBits s f)) (List.finRange 16) >>= fun _ =>
          .ok (setAllFv (decodedValues s) s)) := by
  simp only [exec, execBfDecode, (checkTable_eq_ok _).2 ht, bind_ok]
  rfl

theorem exec_bfDecode_of_decodable {s : State} (ht : tableValid s.desc) (hl : recordWidth s.desc ≤ s.rlen.toNat)
    (hx : ∀ f : Fin 16, decodable s s.desc[f] (storedBits s f)) :
    exec .bfDecode s = .next (decodedState s) := by
  have hscan : checkEach (fun f => checkBits s.etab s.strict f s.desc[f] (storedBits s f)) (List.finRange 16) =
      .ok () := (checkEach_eq_ok _ _).2 fun f _ => by rw [checkBits_eq (ht.1 f), require_decide (hx f)]
  rw [exec_bfDecode_of_tableValid ht, require_decide hl, bind_ok, hscan, bind_ok, complete_ok]
  rfl

/-- Where x is the bits of a field that carries a value, it is the stored bits; another field is decodable anyhow. -/
theorem decodable_storedBits_iff {s : State} (ht : tableValid s.desc) {f : Fin 16} {x : Nat}
    (hx : carriesValue s.desc[f] → rbufField s (recordWidth s.desc) s.desc[f] x) :
    decodable s s.desc[f] (storedBits s f) ↔ decodable s s.desc[f] x := by
  by_cases hc : carriesValue s.desc[f]
  · rw [eq_storedBits ht hc (hx hc)]
  · exact iff_of_true (decodable_of_not_carries hc) (decodable_of_not_carries hc)

/-- Settles O53. -/
theorem bfDecodeReportsTheFirstBadField : Obligations.BfDecodeReportsTheFirstBadField := by
  intro s ht
  refine ⟨fun hl => ?_, fun x f hl hx hbelow hf => ?_⟩
  · rw [exec_bfDecode_of_tableValid ht, require_decide_of_not (Nat.not_le.2 hl), bind_error, complete_error,
      raiseError_eq_failed]
    rfl
  · have hbad : ¬decodable s s.desc[f] (storedBits s f) := mt (decodable_storedBits_iff ht (hx f)).1 hf
    have hscan : checkEach (fun f => checkBits s.etab s.strict f s.desc[f] (storedBits s f)) (List.finRange 16) =
        .error ⟨.format, if s.desc[f].kind = 2 then 3 else 2, fieldByte f⟩ := by
      refine checkEach_of_firstFailure (f := f) (fun g hg => ?_) ?_
      · rw [checkBits_eq (ht.1 g), require_decide ((decodable_storedBits_iff ht (hx g)).2 (hbelow g hg))]
      · rw [checkBits_eq (ht.1 f), require_decide_of_not hbad]
    rw [exec_bfDecode_of_tableValid ht, require_decide hl, bind_ok, hscan, bind_error]
    refine (complete_of_fieldError rfl).trans ?_
    split <;> rfl

theorem fieldValue_flag {d : Desc} (hk : d.kind = 1) (x : Nat) : fieldValue d x = if x = 0 then 0 else 1 := by
  simp only [fieldValue, kindOf_flag hk]

theorem fieldValue_numeric {d : Desc} (hk : d.kind = 2) (x : Nat) :
    fieldValue d x = BitVec.ofNat 128 (x / scaleFactor d) := by
  simp only [fieldValue, kindOf_numeric hk, scaleOf_eq]

theorem fieldValue_stored {d : Desc} (hk : d.kind = 3 ∨ d.kind = 4) (x : Nat) :
    fieldValue d x = BitVec.ofNat 128 x := by
  rcases hk with hk | hk
  · simp only [fieldValue, kindOf_enum hk]
  · simp only [fieldValue, kindOf_octets hk]

theorem fieldValue_eq_zero {d : Desc} (hd : descValid d) (hc : ¬carriesValue d) (x : Nat) : fieldValue d x = 0 := by
  rcases kind_of_not_carries hd hc with hk | hk
  · simp only [fieldValue, kindOf_none hk]
  · simp only [fieldValue, kindOf_reserved hk]

theorem lt_two_pow_128 {d : Desc} {x : Nat} (hx : x < 2 ^ fieldWidth d) : x < 2 ^ 128 :=
  hx.trans_le (Nat.pow_le_pow_right (by decide) (fieldWidth_le_128 d))

/-- The value of a field's bits as a number: no value is cut at 128 bits. -/
theorem toNat_fieldValue {d : Desc} (hc : carriesValue d) {x : Nat} (hx : x < 2 ^ fieldWidth d) :
    (fieldValue d x).toNat =
      if d.kind = 1 then (if x = 0 then 0 else 1)
      else if d.kind = 2 then x / scaleFactor d
      else if d.kind = 3 ∨ d.kind = 4 then x
      else 0 := by
  have hlt := lt_two_pow_128 hx
  rcases hc with hk | hk | hk
  · rw [fieldValue_flag hk, if_pos hk]
    split <;> rfl
  · rw [fieldValue_numeric hk, if_neg (by rw [hk]; decide), if_pos hk, BitVec.toNat_ofNat,
      Nat.mod_eq_of_lt ((Nat.div_le_self _ _).trans_lt hlt)]
  · have hne : d.kind ≠ 1 ∧ d.kind ≠ 2 := by rcases hk with hk | hk <;> rw [hk] <;> decide
    rw [fieldValue_stored hk, if_neg hne.1, if_neg hne.2, if_pos hk, BitVec.toNat_ofNat, Nat.mod_eq_of_lt hlt]

theorem getElem_decodedValues (s : State) (f : Fin 16) :
    (decodedValues s)[f] = fieldValue s.desc[f] (storedBits s f) := by
  simp [decodedValues]

/-- Settles O52. -/
theorem bfDecodeUnpacksTheRecord : Obligations.BfDecodeUnpacksTheRecord := by
  intro s x ht hl hx
  refine ⟨decodedValues s, exec_bfDecode_of_decodable ht hl fun f => ?_, fun f => ?_⟩
  · by_cases hc : carriesValue s.desc[f]
    · obtain ⟨hfield, hok⟩ := hx f hc
      exact (decodable_storedBits_iff ht fun _ => hfield).2 hok
    · exact decodable_of_not_carries hc
  · rw [getElem_decodedValues]
    by_cases hc : carriesValue s.desc[f]
    · obtain ⟨hfield, -⟩ := hx f hc
      rw [← eq_storedBits ht hc hfield, toNat_fieldValue hc hfield.1]
    · rw [fieldValue_eq_zero (ht.1 f) hc, if_neg fun h => hc (.inl h), if_neg fun h => hc (.inr (.inl h)),
        if_neg fun h => hc (.inr (.inr h))]
      rfl

/-- A BF_DECODE that sets no ERR found a valid table, enough bytes and decodable fields. -/
theorem bfDecode_inversion {s t : State} (h : exec .bfDecode s = .next t) (ht : t.err = false) :
    tableValid s.desc ∧ (∀ f : Fin 16, decodable s s.desc[f] (storedBits s f)) ∧
      t = decodedState s := by
  have noError {e : CmdError} (he : exec .bfDecode s = .next (raiseError e s)) : False := by
    obtain rfl := Host.Outcome.next.inj (h.symm.trans he)
    simp at ht
  by_cases hv : tableValid s.desc
  case neg =>
    obtain ⟨e, he⟩ := exists_checkTable_error hv
    exact (noError (exec_of_checkTable_error (.inr rfl) he)).elim
  have hl : recordWidth s.desc ≤ s.rlen.toNat := by
    by_contra hl
    refine noError (e := ⟨.format, 1, noField⟩) ((exec_bfDecode_of_tableValid hv).trans ?_)
    rw [require_decide_of_not hl, bind_error, complete_error]
  have hx : ∀ f : Fin 16, decodable s s.desc[f] (storedBits s f) := by
    cases hscan : checkEach (fun f => checkBits s.etab s.strict f s.desc[f] (storedBits s f)) (List.finRange 16) with
    | error e =>
      refine (noError (e := e) ((exec_bfDecode_of_tableValid hv).trans ?_)).elim
      rw [require_decide hl, bind_ok, hscan, bind_error, complete_error]
    | ok u =>
      intro f
      have hf := (checkEach_eq_ok _ _).1 hscan f (List.mem_finRange f)
      rw [checkBits_eq (hv.1 f), require_eq_ok] at hf
      exact of_decide_eq_true hf
  exact ⟨hv, hx, Host.Outcome.next.inj (h.symm.trans (exec_bfDecode_of_decodable hv hl hx))⟩

/-! # The round trips (R137) -/

section RoundTrip

variable {s : State} {d : Desc} {v : Value} {x : Nat}

theorem eq_zero_or_one (h : v.toNat ≤ 1) : v = 0 ∨ v = 1 := by
  rcases Nat.le_one_iff_eq_zero_or_eq_one.1 h with h | h
  · exact .inl (BitVec.eq_of_toNat_eq h)
  · exact .inr (BitVec.eq_of_toNat_eq h)

/-- A value that the setter takes is packed without loss. -/
theorem fieldBits_of_settable (hr : d.lo.toNat ≤ d.hi.toNat) (hc : carriesValue d) (hv : settable s.etab d v) :
    fieldBits d v = if d.kind = 2 then v.toNat * scaleFactor d else v.toNat := by
  obtain ⟨hflag, hnumeric, henum, hoctets⟩ := hv
  rcases hc with hk | hk | hk | hk
  · have h2 : ¬d.kind = 2 := by rw [hk]; decide
    rw [fieldBits_flag hk, if_neg h2]
    rcases eq_zero_or_one (hflag hk) with rfl | rfl <;> rfl
  · rw [fieldBits_numeric hk hr, if_pos hk, Nat.mod_eq_of_lt (hnumeric hk)]
  · rw [fieldBits_stored (.inl hk) hr, if_neg (by rw [hk]; decide), Nat.mod_eq_of_lt (henum hk).2]
  · rw [fieldBits_stored (.inr hk) hr, if_neg (by rw [hk]; decide), Nat.mod_eq_of_lt (hoctets hk)]

theorem scaleFactor_pos (d : Desc) : 0 < scaleFactor d := by
  unfold scaleFactor
  split <;> omega

/-- The bits of a value that the setter takes are decodable, under any STRICT. -/
theorem decodable_fieldBits (hr : d.lo.toNat ≤ d.hi.toNat) (hv : settable s.etab d v) :
    decodable s d (fieldBits d v) := by
  refine ⟨fun hk => ?_, fun hk _ => ?_⟩
  · rw [fieldBits_of_settable hr (.inr (.inl hk)) hv, if_pos hk, Nat.mul_mod_left]
  · rw [fieldBits_of_settable hr (.inr (.inr (.inl hk))) hv, if_neg (by rw [hk]; decide), BitVec.ofNat_toNat,
      BitVec.setWidth_eq]
    obtain ⟨-, -, henum, -⟩ := hv
    exact (henum hk).1

/-- Decoding the packed bits of a value that the setter takes gives the value back. -/
theorem fieldValue_fieldBits (hr : d.lo.toNat ≤ d.hi.toNat) (hc : carriesValue d) (hv : settable s.etab d v) :
    fieldValue d (fieldBits d v) = v := by
  rcases hc with hk | hk | hk
  · rw [fieldBits_flag hk, fieldValue_flag hk]
    rcases eq_zero_or_one (hv.1 hk) with rfl | rfl <;> rfl
  · rw [fieldBits_of_settable hr (.inr (.inl hk)) hv, fieldValue_numeric hk, if_pos hk,
      Nat.mul_div_cancel _ (scaleFactor_pos d), BitVec.ofNat_toNat, BitVec.setWidth_eq]
  · have h2 : d.kind ≠ 2 := by rcases hk with hk | hk <;> rw [hk] <;> decide
    rw [fieldBits_of_settable hr (.inr (.inr hk)) hv, fieldValue_stored hk, if_neg h2, BitVec.ofNat_toNat,
      BitVec.setWidth_eq]

/-- Packing the value of decodable bits gives the bits back, but for a FLAG of other bits than 0 and 1. -/
theorem fieldBits_fieldValue (hr : d.lo.toNat ≤ d.hi.toNat) (hk : d.kind = 2 ∨ d.kind = 3 ∨ d.kind = 4)
    (hx : x < 2 ^ fieldWidth d) (hok : decodable s d x) : fieldBits d (fieldValue d x) = x := by
  have hlt := lt_two_pow_128 hx
  rcases hk with hk | hk
  · rw [fieldValue_numeric hk, fieldBits_numeric hk hr, BitVec.toNat_ofNat,
      Nat.mod_eq_of_lt ((Nat.div_le_self _ _).trans_lt hlt), Nat.div_mul_cancel (Nat.dvd_of_mod_eq_zero (hok.1 hk)),
      Nat.mod_eq_of_lt hx]
  · rw [fieldValue_stored hk, fieldBits_stored hk hr, BitVec.toNat_ofNat, Nat.mod_eq_of_lt hlt, Nat.mod_eq_of_lt hx]

theorem fieldBits_fieldValue_flag (hk : d.kind = 1) : fieldBits d (fieldValue d x) = if x = 0 then 0 else 1 := by
  rw [fieldBits_flag hk, fieldValue_flag hk]
  by_cases h0 : x = 0
  · simp [h0]
  · simp [h0]

end RoundTrip

theorem encodedState_rlen (s : State) : (encodedState s).rlen.toNat = recordWidth s.desc := by
  have := recordWidth_le s.desc
  simp only [encodedState, BitVec.toNat_ofNat]
  omega

/-- After BF_ENCODE the record's bits that a field covers are those of its packed value. -/
theorem rbufBit_encodedState_field {s : State} (hm : Memory.wf s.mem = true) (ht : tableValid s.desc) {f : Fin 16}
    (hc : carriesValue s.desc[f]) {b : Nat} (hb : b < fieldWidth s.desc[f]) :
    rbufBit (encodedState s) (recordWidth s.desc) (s.desc[f].lo.toNat + b) =
      (fieldBits s.desc[f] s.fv[f]).testBit b :=
  (rbufBit_encodedMem hm (lo_add_lt_recordWidth (inUse_of_carriesValue hc) hb)).trans
    (testBit_rawOfRecord_field ht s.fv hc hb)

theorem storedBits_encodedState {s : State} (hm : Memory.wf s.mem = true) (ht : tableValid s.desc) {f : Fin 16}
    (hc : carriesValue s.desc[f]) : storedBits (encodedState s) f = fieldBits s.desc[f] s.fv[f] :=
  (eq_storedBits (s := encodedState s) ht hc
    ⟨fieldBits_lt (lo_le_hi (ht.1 f) (inUse_of_carriesValue hc)) hc _,
      fun _ hb => (rbufBit_encodedState_field hm ht hc hb).symm⟩).symm

/-- Settles O54. -/
theorem decodeAfterEncodeRestoresTheRecord : Obligations.DecodeAfterEncodeRestoresTheRecord := by
  intro s hm ht hv
  refine ⟨encodedState s, decodedValues (encodedState s), exec_bfEncode_of_tableValid ht,
    exec_bfDecode_of_decodable (s := encodedState s) ht (encodedState_rlen s).ge fun f => ?_, fun f => ?_⟩
  · by_cases hc : carriesValue s.desc[f]
    · rw [storedBits_encodedState hm ht hc]
      exact decodable_fieldBits (s := encodedState s) (lo_le_hi (ht.1 f) (inUse_of_carriesValue hc)) (hv f)
    · exact decodable_of_not_carries hc
  · rw [getElem_decodedValues]
    by_cases hc : carriesValue s.desc[f]
    · rw [storedBits_encodedState hm ht hc, if_pos hc]
      exact fieldValue_fieldBits (lo_le_hi (ht.1 f) (inUse_of_carriesValue hc)) hc (hv f)
    · rw [if_neg hc]
      exact fieldValue_eq_zero (ht.1 f) hc _

/-- A number with a width is not 0 exactly when one of its bits below the width is 1. -/
theorem ne_zero_iff_exists_testBit {x w : Nat} (hx : x < 2 ^ w) : x ≠ 0 ↔ ∃ c, c < w ∧ x.testBit c = true := by
  constructor
  · intro h0
    obtain ⟨c, hc⟩ := Nat.exists_testBit_of_ne_zero h0
    refine ⟨c, ?_, hc⟩
    by_contra hw
    rw [Nat.testBit_lt_two_pow (hx.trans_le (Nat.pow_le_pow_right (by decide) (Nat.not_lt.1 hw)))] at hc
    cases hc
  · rintro ⟨c, -, hc⟩ rfl
    simp at hc

/-- After BF_DECODE and BF_ENCODE a field holds the packed bits of its decoded value. -/
theorem rbufBit_encodedState_decodedState {s : State} (hm : Memory.wf s.mem = true) (ht : tableValid s.desc)
    {f : Fin 16} (hc : carriesValue s.desc[f]) {b : Nat} (hb : b < fieldWidth s.desc[f]) :
    rbufBit (encodedState (decodedState s)) (recordWidth s.desc) (s.desc[f].lo.toNat + b) =
      (fieldBits s.desc[f] (fieldValue s.desc[f] (storedBits s f))).testBit b := by
  rw [← getElem_decodedValues]
  exact rbufBit_encodedState_field (s := decodedState s) hm ht hc hb

/-- Settles O55: the record after decoding and encoding is that of the decoded values, field by field. -/
theorem encodeAfterDecodeRestoresTheBytes : Obligations.EncodeAfterDecodeRestoresTheBytes := by
  intro s t hm herr hdec hterr w
  obtain ⟨ht, hx, rfl⟩ := bfDecode_inversion hdec hterr
  refine ⟨encodedState (decodedState s), exec_bfEncode_of_tableValid (s := decodedState s) ht, herr,
    encodedState_rlen (decodedState s), fun k => readByte_encodedMem_of_le (s := decodedState s) hm,
    fun f b hb hk => ?_, fun f b hb hk => ?_, fun b hb hcov => ?_⟩
  · have hc : carriesValue s.desc[f] := .inr hk
    have hu := inUse_of_carriesValue hc
    obtain ⟨hlt, hbits⟩ := rbufField_storedBits (ht.1 f) hu
    rw [rbufBit_encodedState_decodedState hm ht hc hb, fieldBits_fieldValue (lo_le_hi (ht.1 f) hu) hk hlt (hx f),
      hbits b hb]
  · have hc : carriesValue s.desc[f] := .inl hk
    obtain ⟨hlt, hbits⟩ := rbufField_storedBits (ht.1 f) (inUse_of_carriesValue hc)
    have hset : (∃ c, c < fieldWidth s.desc[f] ∧ rbufBit s w (s.desc[f].lo.toNat + c) = true) ↔ storedBits s f ≠ 0 := by
      rw [ne_zero_iff_exists_testBit hlt]
      exact exists_congr fun c => and_congr_right fun hcw => by rw [hbits c hcw]
    rw [hset, rbufBit_encodedState_decodedState hm ht hc hb, fieldBits_fieldValue_flag hk]
    split
    next h0 => simp [h0]
    next h0 => rw [Nat.testBit_one_eq_true_iff_self_eq_zero, and_iff_left h0]
  · exact (rbufBit_encodedMem (s := decodedState s) hm hb).trans (testBit_rawOfRecord_uncovered ht _ hcov)

end Sys2Proof.BitfieldFamily

namespace Sys2Proof.AesBlockFamily

open Sys2Proof.Machine Sys2Proof.Safety Sys2Proof.EncodingFamily

/-! # The tables SBOX and INV_SBOX (41_aes_block.md R171, R172) -/

/-- The affine map of R171. -/
def affineMap (b : Byte) : Byte :=
  b ^^^ b.rotateLeft 1 ^^^ b.rotateLeft 2 ^^^ b.rotateLeft 3 ^^^ b.rotateLeft 4 ^^^ 0x63

/-- The inverse of the affine map, which finds the field inverse of x in SBOX[x]. -/
def affineInverse (y : Byte) : Byte := y.rotateLeft 1 ^^^ y.rotateLeft 3 ^^^ y.rotateLeft 6 ^^^ 0x05

theorem affineMap_affineInverse : ∀ y : Byte, affineMap (affineInverse y) = y := by decide

theorem gmul_affineInverse_sbox : ∀ x : Byte, x ≠ 0 → gmul x (affineInverse (sbox x)) = 1 := by decide

theorem sbox_ne_self : ∀ x : Byte, sbox x ≠ x := by decide

@[simp] theorem invSbox_sbox : ∀ x : Byte, invSbox (sbox x) = x := by decide

@[simp] theorem sbox_invSbox : ∀ x : Byte, sbox (invSbox x) = x := by decide

/-- Settles O32: the byte b of R171 is read off the table by undoing the affine map. -/
theorem sboxIsTheAffineMapOfTheInverse : Obligations.SboxIsTheAffineMapOfTheInverse :=
  ⟨rfl,
    fun x hx => ⟨affineInverse (sbox x), gmul_affineInverse_sbox x hx, (affineMap_affineInverse (sbox x)).symm⟩,
    sbox_ne_self, invSbox_sbox, sbox_invSbox⟩

/-! # The product of R174

`gmul` is bilinear over xor and associative: what it needs of its modulus is that x^8 is 0x1B. -/

theorem xtime_eq (b : Byte) : xtime b = b <<< 1 ^^^ if b.getLsbD 7 then 0x1B else 0 := by
  unfold xtime
  split <;> simp

theorem ite_xor (p : Prop) [Decidable p] (a b : Byte) :
    (if p then a ^^^ b else 0) = (if p then a else 0) ^^^ (if p then b else 0) := by
  split <;> simp

theorem ite_getLsbD_xor (a b b' : Byte) (i : Nat) :
    (if (b ^^^ b').getLsbD i then a else 0) = (if b.getLsbD i then a else 0) ^^^ (if b'.getLsbD i then a else 0) := by
  rw [BitVec.getLsbD_xor]
  cases b.getLsbD i <;> cases b'.getLsbD i <;> simp

theorem xtime_xor (a b : Byte) : xtime (a ^^^ b) = xtime a ^^^ xtime b := by
  simp only [xtime_eq, BitVec.shiftLeft_xor_distrib, ite_getLsbD_xor]
  ac_rfl

theorem xtime_ite (p : Prop) [Decidable p] (a : Byte) : xtime (if p then a else 0) = if p then xtime a else 0 := by
  split <;> rfl

theorem gmulSteps_xor_left (n : Nat) (a a' b : Byte) :
    gmulSteps n (a ^^^ a') b = gmulSteps n a b ^^^ gmulSteps n a' b := by
  induction n generalizing a a' b with
  | zero => simp [gmulSteps]
  | succ n ih =>
    simp only [gmulSteps, xtime_xor, ih, ite_xor]
    ac_rfl

theorem gmulSteps_xtime (n : Nat) (a b : Byte) : gmulSteps n (xtime a) b = xtime (gmulSteps n a b) := by
  induction n generalizing a b with
  | zero => simp [gmulSteps, xtime]
  | succ n ih => simp only [gmulSteps, xtime_xor, ih, xtime_ite]

theorem gmulSteps_xor_right (n : Nat) (a b b' : Byte) :
    gmulSteps n a (b ^^^ b') = gmulSteps n a b ^^^ gmulSteps n a b' := by
  induction n generalizing a b b' with
  | zero => simp [gmulSteps]
  | succ n ih =>
    simp only [gmulSteps, BitVec.ushiftRight_xor_distrib, ih, ite_getLsbD_xor]
    ac_rfl

theorem gmul_xor_left (a a' b : Byte) : gmul (a ^^^ a') b = gmul a b ^^^ gmul a' b := gmulSteps_xor_left 8 a a' b

theorem gmul_xor_right (a b b' : Byte) : gmul a (b ^^^ b') = gmul a b ^^^ gmul a b' := gmulSteps_xor_right 8 a b b'

@[simp] theorem gmul_zero : ∀ a : Byte, gmul a 0#8 = 0#8 := by decide

@[simp] theorem gmul_one : ∀ a : Byte, gmul a 1#8 = a := by decide

/-- Reduction modulo 0x11B: x^8 acts as 0x1B. -/
theorem xtime_pow_eight : ∀ a : Byte, xtime^[8] a = gmul a 0x1B := by decide

theorem gmul_ite (p : Prop) [Decidable p] (a b : Byte) : gmul a (if p then b else 0) = if p then gmul a b else 0 := by
  split <;> simp

/-- Multiplying by x before or after: the bit that leaves b comes back as x^8. -/
theorem gmul_xtime (a b : Byte) : gmul a (xtime b) = xtime (gmul a b) := by
  rw [xtime_eq, gmul_xor_right, gmul_ite, ← xtime_pow_eight, gmul, gmul, ← gmulSteps_xtime]
  simp [gmulSteps, BitVec.xor_assoc]

theorem gmulSteps_gmul (n : Nat) (a b c : Byte) : gmulSteps n (gmul a b) c = gmul a (gmulSteps n b c) := by
  induction n generalizing b c with
  | zero => exact (gmul_zero a).symm
  | succ n ih => simp only [gmulSteps, ← gmul_xtime, ih, gmul_xor_right, gmul_ite]

theorem gmul_assoc (a b c : Byte) : gmul (gmul a b) c = gmul a (gmul b c) := gmulSteps_gmul 8 a b c

/-! # Rows and columns of the state (R175) -/

@[simp] theorem cell_mod_row_add (s : Block) (r i c : Nat) : cell s (r % 4 + i) c = cell s (r + i) c := by simp [cell]

@[simp] theorem cell_mod_row (s : Block) (r c : Nat) : cell s (r % 4) c = cell s r c := by simp [cell]

@[simp] theorem cell_mod_column (s : Block) (r c : Nat) : cell s r (c % 4) = cell s r c := by simp [cell]

@[simp] theorem cell_row_add_four (s : Block) (r c : Nat) : cell s (r + 4) c = cell s r c := by simp [cell]

@[simp] theorem cell_ofCells (g : Nat → Nat → Byte) (r c : Nat) : cell (ofCells g) r c = g (r % 4) (c % 4) := by
  have hr : (r % 4 + 4 * (c % 4)) % 4 = r % 4 := by omega
  have hc : (r % 4 + 4 * (c % 4)) / 4 = c % 4 := by omega
  simp [cell, ofCells, hr, hc]

theorem ofCells_eq {g : Nat → Nat → Byte} {s : Block} (h : ∀ r c, r < 4 → c < 4 → g r c = cell s r c) :
    ofCells g = s := by
  apply Vector.ext
  intro n hn
  have hi : n % 4 % 4 + 4 * (n / 4 % 4) = n := by omega
  simp only [ofCells, Vector.getElem_ofFn, h (n % 4) (n / 4) (by omega) (by omega), cell, hi]

@[simp] theorem invShiftRows_shiftRows (s : Block) : invShiftRows (shiftRows s) = s :=
  ofCells_eq fun r c hr _ => by
    have h : ((c + 4 - r) % 4 + r % 4) % 4 = c % 4 := by omega
    rw [shiftRows, cell_ofCells, ← cell_mod_column, h, cell_mod_row, cell_mod_column]

@[simp] theorem shiftRows_invShiftRows (s : Block) : shiftRows (invShiftRows s) = s :=
  ofCells_eq fun r c _ _ => by
    have h : ((c + r) % 4 + 4 - r % 4) % 4 = c % 4 := by omega
    rw [invShiftRows, cell_ofCells, ← cell_mod_column, h, cell_mod_row, cell_mod_column]

/-! ## MixColumns as a circulant matrix -/

/-- Each column of the state times the circulant matrix with first row k0, k1, k2, k3; MixColumns and its inverse are
two of these. -/
def circulant (k0 k1 k2 k3 : Byte) (s : Block) : Block :=
  ofCells fun r c =>
    gmul (cell s r c) k0 ^^^ gmul (cell s (r + 1) c) k1 ^^^ gmul (cell s (r + 2) c) k2 ^^^ gmul (cell s (r + 3) c) k3

theorem mixColumns_eq_circulant (s : Block) : mixColumns s = circulant 0x02 0x03 0x01 0x01 s := by
  simp [mixColumns, circulant]

theorem invMixColumns_eq_circulant (s : Block) : invMixColumns s = circulant 0x0e 0x0b 0x0d 0x09 s := rfl

theorem circulant_one (s : Block) : circulant 1 0 0 0 s = s :=
  ofCells_eq fun r c _ _ => by simp

theorem cell_circulant (k0 k1 k2 k3 : Byte) (s : Block) (r c : Nat) :
    cell (circulant k0 k1 k2 k3 s) r c =
      gmul (cell s r c) k0 ^^^ gmul (cell s (r + 1) c) k1 ^^^ gmul (cell s (r + 2) c) k2 ^^^
        gmul (cell s (r + 3) c) k3 := by
  simp [circulant]

/-- The product of two circulant matrices is the circulant of the cyclic convolution of their first rows. -/
theorem circulant_circulant (d0 d1 d2 d3 e0 e1 e2 e3 : Byte) (s : Block) :
    circulant e0 e1 e2 e3 (circulant d0 d1 d2 d3 s) =
      circulant (gmul d0 e0 ^^^ gmul d3 e1 ^^^ gmul d2 e2 ^^^ gmul d1 e3)
        (gmul d1 e0 ^^^ gmul d0 e1 ^^^ gmul d3 e2 ^^^ gmul d2 e3)
        (gmul d2 e0 ^^^ gmul d1 e1 ^^^ gmul d0 e2 ^^^ gmul d3 e3)
        (gmul d3 e0 ^^^ gmul d2 e1 ^^^ gmul d1 e2 ^^^ gmul d0 e3) s :=
  ofCells_eq fun r c _ _ => by
    simp only [cell_circulant, gmul_xor_left, gmul_xor_right, gmul_assoc, Nat.add_assoc, Nat.reduceAdd,
      cell_row_add_four]
    ac_rfl

@[simp] theorem invMixColumns_mixColumns (s : Block) : invMixColumns (mixColumns s) = s := by
  rw [mixColumns_eq_circulant, invMixColumns_eq_circulant, circulant_circulant]
  exact circulant_one s

@[simp] theorem mixColumns_invMixColumns (s : Block) : mixColumns (invMixColumns s) = s := by
  rw [mixColumns_eq_circulant, invMixColumns_eq_circulant, circulant_circulant]
  exact circulant_one s

/-! ## The byte-wise transformations -/

@[simp] theorem invSubBytes_subBytes (s : Block) : invSubBytes (subBytes s) = s := by
  apply Vector.ext
  simp [invSubBytes, subBytes]

@[simp] theorem subBytes_invSubBytes (s : Block) : subBytes (invSubBytes s) = s := by
  apply Vector.ext
  simp [invSubBytes, subBytes]

@[simp] theorem xorBlock_xorBlock (s k : Block) : xorBlock (xorBlock s k) k = s := by
  apply Vector.ext
  simp

/-- Settles O33. -/
theorem roundTransformationsInvert : Obligations.RoundTransformationsInvert := fun s k =>
  ⟨invSubBytes_subBytes s, subBytes_invSubBytes s, invShiftRows_shiftRows s, shiftRows_invShiftRows s,
    invMixColumns_mixColumns s, mixColumns_invMixColumns s, xorBlock_xorBlock s k⟩

/-! # The cipher and the inverse cipher (R178, R179)

Rounds n down to 1 of the inverse cipher undo rounds 1 to n of the cipher, once each side has the SubBytes and ShiftRows
of the round that follows. -/

theorem decRounds_encRounds (rk : Nat → Block) (n : Nat) (s : Block) :
    decRounds rk n (shiftRows (subBytes (encRounds rk n s))) = shiftRows (subBytes s) := by
  induction n with
  | zero => rfl
  | succ n ih => simp [decRounds, encRounds, ih]

theorem encRounds_decRounds (rk : Nat → Block) (n : Nat) (s : Block) :
    encRounds rk n (invSubBytes (invShiftRows (decRounds rk n s))) = invSubBytes (invShiftRows s) := by
  induction n generalizing s with
  | zero => rfl
  | succ n ih => simp [decRounds, encRounds, ih]

@[simp] theorem aesDec_aesEnc (k b : Block) : aesDec k (aesEnc k b) = b := by
  simp [aesDec, aesEnc, decRounds_encRounds]

@[simp] theorem aesEnc_aesDec (k b : Block) : aesEnc k (aesDec k b) = b := by
  simp [aesDec, aesEnc, encRounds_decRounds]

/-- Settles O34. -/
theorem aesDecryptInvertsEncrypt : Obligations.AesDecryptInvertsEncrypt := fun k b =>
  ⟨aesDec_aesEnc k b, aesEnc_aesDec k b⟩

set_option maxRecDepth 100000 in
/-- Settles O35, by running the model on the inputs of R177 to R179. -/
theorem aesCheckValues : Obligations.AesCheckValues := by
  refine ⟨?_, ?_, ?_, ?_, ?_⟩ <;> decide

/-! # The checks of the keyed commands (R180, R181) -/

theorem checkKey_of_ne {s : State} (h : s.klen.toNat ≠ 16) : checkKey s = .error ⟨.key, 1, 0xFF⟩ :=
  (require_eq_error _ _ _).2 ⟨by simpa using h, rfl⟩

theorem checkDataLength_of_lt {s : State} (h : 256 < s.dlen.toNat) : checkDataLength s = .error ⟨.len, 1, 0xFF⟩ :=
  (require_eq_error _ _ _).2 ⟨by simpa using h, rfl⟩

theorem checkWholeBlocks_of_ne {s : State} (h : s.dlen.toNat % 16 ≠ 0) :
    checkWholeBlocks s = .error ⟨.len, 2, 0xFF⟩ :=
  (require_eq_error _ _ _).2 ⟨by simpa using h, rfl⟩

theorem checkMicLength_of_lt {s : State} (h : 255 < s.dlen.toNat) : checkMicLength s = .error ⟨.len, 3, 0xFF⟩ :=
  (require_eq_error _ _ _).2 ⟨by simpa using h, rfl⟩

/-- A command that checks the key, then the data length, and then follows a rule of its own. -/
def keyedCommand (s : State) (rule : Except CmdError State) : Host.Outcome State Fault Refusal :=
  complete s (checkKey s >>= fun _ => checkDataLength s >>= fun _ => rule)

theorem keyedCommand_of_badKey {s : State} (hk : s.klen.toNat ≠ 16) (rule : Except CmdError State) :
    keyedCommand s rule = .next (failed s 4 1 0xFF) := by
  rw [keyedCommand, checkKey_of_ne hk, bind_error, complete_error, raiseError_eq_failed]
  rfl

theorem keyedCommand_of_badLength {s : State} (hk : s.klen.toNat = 16) (hl : 256 < s.dlen.toNat)
    (rule : Except CmdError State) : keyedCommand s rule = .next (failed s 7 1 0xFF) := by
  rw [keyedCommand, (checkKey_eq_ok s).2 hk, bind_ok, checkDataLength_of_lt hl, bind_error, complete_error,
    raiseError_eq_failed]
  rfl

theorem keyedCommand_of_badRule {s : State} (hk : s.klen.toNat = 16) (hl : s.dlen.toNat ≤ 256) (e : CmdError) :
    keyedCommand s (.error e) = .next (failed s e.code.number.toNat e.sub.toNat e.field.toNat) := by
  rw [keyedCommand, (checkKey_eq_ok s).2 hk, bind_ok, (checkDataLength_eq_ok s).2 hl, bind_ok, complete_error,
    raiseError_eq_failed]

/-- The rule of an ECB command starts with the check for whole blocks, that of MIC_DATA with the check for its own
length. -/
theorem exec_eq_keyedCommand {i : Instr} (hi : i ∈ [Instr.ecbEnc, .ecbDec, .ksXor, .cmac, .micData]) (s : State) :
    ∃ rule, exec i s = keyedCommand s rule ∧
      (i = .ecbEnc ∨ i = .ecbDec → s.dlen.toNat % 16 ≠ 0 → rule = .error ⟨.len, 2, 0xFF⟩) ∧
      (i = .micData → 255 < s.dlen.toNat → rule = .error ⟨.len, 3, 0xFF⟩) := by
  simp only [List.mem_cons, List.not_mem_nil, or_false] at hi
  rcases hi with rfl | rfl | rfl | rfl | rfl
  case inl => exact ⟨_, rfl, fun _ h => by rw [checkWholeBlocks_of_ne h, bind_error], nofun⟩
  case inr.inl => exact ⟨_, rfl, fun _ h => by rw [checkWholeBlocks_of_ne h, bind_error], nofun⟩
  case inr.inr.inl => exact ⟨_, rfl, by simp, nofun⟩
  case inr.inr.inr.inl => exact ⟨_, rfl, by simp, nofun⟩
  case inr.inr.inr.inr => exact ⟨_, rfl, by simp, fun _ h => by rw [checkMicLength_of_lt h, bind_error]⟩

/-- Settles O37. -/
theorem keyedCommandsCheckKeyThenLength : Obligations.KeyedCommandsCheckKeyThenLength := by
  intro i s hi
  obtain ⟨rule, hrun, hecb, hmic⟩ := exec_eq_keyedCommand hi s
  rw [hrun]
  refine ⟨fun hk => keyedCommand_of_badKey hk rule, fun hk hl => keyedCommand_of_badLength hk hl rule,
    fun hk hl hb hi => ?_, fun hk hl hi => ?_⟩
  · rw [hecb hi hb]
    exact keyedCommand_of_badRule hk hl ⟨.len, 2, 0xFF⟩
  · rw [hmic hi (by omega)]
    exact keyedCommand_of_badRule hk hl.le ⟨.len, 3, 0xFF⟩

/-! # A block function applied to a byte string (R182) -/

theorem mapBlocks_getElem (g : Block → Block) (bs : List Byte) {k : Nat} (hk : k < (mapBlocks g bs).length) :
    (mapBlocks g bs)[k] = (g (dataBlock bs (k / 16)))[k % 16]'(Nat.mod_lt _ (by decide)) :=
  flatMap_blocks_getElem _ _ _ hk

theorem dataBlock_mapBlocks (g : Block → Block) {bs : List Byte} (hb : bs.length % 16 = 0) {j : Nat}
    (hj : j < bs.length / 16) : dataBlock (mapBlocks g bs) j = g (dataBlock bs j) := by
  apply Vector.ext
  intro n hn
  have hlt : 16 * j + n < (mapBlocks g bs).length := by
    rw [mapBlocks_length g bs hb]
    omega
  have hdiv : (16 * j + n) / 16 = j := by omega
  have hmod : (16 * j + n) % 16 = n := by omega
  simp only [dataBlock_getElem, List.getD_eq_getElem _ _ hlt, mapBlocks_getElem, hdiv, hmod]

theorem mapBlocks_mapBlocks {g h : Block → Block} (hinv : Function.LeftInverse h g) {bs : List Byte}
    (hb : bs.length % 16 = 0) : mapBlocks h (mapBlocks g bs) = bs := by
  have hlen : (mapBlocks g bs).length = bs.length := mapBlocks_length g bs hb
  apply List.ext_getElem ((mapBlocks_length h _ (hlen ▸ hb)).trans hlen)
  intro k hk hk'
  have hj : k / 16 < bs.length / 16 := by omega
  have hidx : 16 * (k / 16) + k % 16 = k := by omega
  simp only [mapBlocks_getElem, dataBlock_mapBlocks g hb hj, hinv _, dataBlock_getElem, hidx,
    List.getD_eq_getElem _ _ hk']

/-! # The ECB commands (R182 to R184) -/

theorem dataBytes_length (s : State) : (dataBytes s).length = s.dlen.toNat := readBytes_length _ _ _

theorem dataBlock_dataBytes (s : State) {j : Nat} (hj : j < s.dlen.toNat / 16) :
    dataBlock (dataBytes s) j = Vector.ofFn fun i => readByte s.mem (0x400 + 16 * j + i.val) := by
  apply Vector.ext
  intro n hn
  have hlt : 16 * j + n < (dataBytes s).length := by
    rw [dataBytes_length]
    omega
  rw [dataBlock_getElem, List.getD_eq_getElem _ _ hlt, Vector.getElem_ofFn, Nat.add_assoc]
  exact readBytes_getElem _ _ _ _ hlt

/-- The bytes that an ECB command leaves in DBUF[0..DLEN]. -/
def ecbBytes (g : Block → Block → Block) (s : State) : List Byte := mapBlocks (g s.key) (dataBytes s)

/-- The state after an ECB command that raised nothing. -/
def ecbState (g : Block → Block → Block) (s : State) : State :=
  { s with mem := writeBytes s.mem Config.dbufBase (ecbBytes g s), done := true, busy := false }

section Ecb

variable {s : State} (hm : Memory.wf s.mem = true) (hk : s.klen.toNat = 16) (hl : s.dlen.toNat ≤ 256)
  (hb : s.dlen.toNat % 16 = 0)

include hb

theorem ecbBytes_length (g : Block → Block → Block) : (ecbBytes g s).length = s.dlen.toNat := by
  rw [ecbBytes, mapBlocks_length _ _ (by rwa [dataBytes_length]), dataBytes_length]

include hk hl in
theorem complete_ecbResult (g : Block → Block → Block) : complete s (ecbResult g s) = .next (ecbState g s) := by
  rw [ecbResult_of_checks g s hk hl hb, complete_ok]
  rfl

include hm

theorem readByte_ecbState (g : Block → Block → Block) {j : Nat} (hj : j < s.dlen.toNat / 16) (n : Fin 16) :
    readByte (ecbState g s).mem (0x400 + 16 * j + n.val) =
      (g s.key (Vector.ofFn fun i => readByte s.mem (0x400 + 16 * j + i.val)))[n] := by
  have hlt : 16 * j + n.val < (ecbBytes g s).length := by
    rw [ecbBytes_length hb]
    omega
  have hdiv : (16 * j + n.val) / 16 = j := by omega
  have hmod : (16 * j + n.val) % 16 = n.val := by omega
  calc readByte (ecbState g s).mem (0x400 + 16 * j + n.val)
      = (ecbBytes g s)[16 * j + n.val] := by
        rw [Nat.add_assoc]
        exact readByte_writeBytes_inside _ _ _ _ hm hlt
    _ = (g s.key (dataBlock (dataBytes s) j))[n] := by
        simp only [ecbBytes, mapBlocks_getElem, hdiv, hmod, Fin.getElem_fin]
    _ = _ := by rw [dataBlock_dataBytes s hj]

include hk hl in
/-- What both ECB commands do, with g the block function of the command. -/
theorem ecbReplacesEachBlock (g : Block → Block → Block) :
    ∃ m, complete s (ecbResult g s) = .next { s with mem := m, done := true, busy := false } ∧
      (∀ (j : Nat) (n : Fin 16), j < s.dlen.toNat / 16 →
        readByte m (0x400 + 16 * j + n.val) =
          (g s.key (Vector.ofFn fun i => readByte s.mem (0x400 + 16 * j + i.val)))[n]) ∧
      bytesKept s.mem m 0x400 s.dlen.toNat :=
  ⟨(ecbState g s).mem, complete_ecbResult hk hl hb g, fun _ n hj => readByte_ecbState hm hb g hj n,
    fun _ hx => readByte_writeBytes_outside _ _ _ _ (by rwa [ecbBytes_length hb])⟩

theorem dataBytes_ecbState (g : Block → Block → Block) : dataBytes (ecbState g s) = ecbBytes g s := by
  have h := readBytes_writeBytes_same (ecbBytes g s) s.mem Config.dbufBase hm
  rwa [ecbBytes_length hb] at h

theorem ecbBytes_ecbState {g h : Block → Block → Block} (hinv : ∀ k, Function.LeftInverse (h k) (g k)) :
    ecbBytes h (ecbState g s) = dataBytes s := by
  rw [ecbBytes, dataBytes_ecbState hm hb]
  exact mapBlocks_mapBlocks (hinv s.key) (by rwa [dataBytes_length])

end Ecb

/-- Writing back the bytes that a string write replaced restores the memory. -/
theorem writeBytes_writeBytes_readBytes {m : Memory} (hm : Memory.wf m = true) (a : Nat) (bs : List Byte) :
    writeBytes (writeBytes m a bs) a (readBytes m a bs.length) = m := by
  have hwf := writeBytes_wf bs m a hm
  refine memory_ext _ _ (writeBytes_wf _ _ a hwf) hm fun x => ?_
  by_cases hx : a ≤ x ∧ x < a + bs.length
  · obtain ⟨k, rfl⟩ := Nat.exists_eq_add_of_le hx.1
    have hk : k < (readBytes m a bs.length).length := by
      rw [readBytes_length]
      omega
    rw [readByte_writeBytes_inside _ _ _ _ hwf hk, readBytes_getElem]
  · have hout : x < a ∨ a + bs.length ≤ x := by omega
    rw [readByte_writeBytes_outside _ _ _ _ (by rwa [readBytes_length]), readByte_writeBytes_outside _ _ _ _ hout]

/-- An ECB command with the inverse block function restores the state but for DONE and BUSY. -/
theorem complete_ecbResult_ecbState {g h : Block → Block → Block} (hinv : ∀ k, Function.LeftInverse (h k) (g k))
    {s : State} (hm : Memory.wf s.mem = true) (hk : s.klen.toNat = 16) (hl : s.dlen.toNat ≤ 256)
    (hb : s.dlen.toNat % 16 = 0) :
    complete (ecbState g s) (ecbResult h (ecbState g s)) = .next { s with done := true, busy := false } := by
  have hmem : (ecbState h (ecbState g s)).mem = s.mem := by
    have hback := writeBytes_writeBytes_readBytes hm Config.dbufBase (ecbBytes g s)
    rw [ecbBytes_length hb] at hback
    rw [ecbState, ecbBytes_ecbState hm hb hinv]
    exact hback
  calc complete (ecbState g s) (ecbResult h (ecbState g s))
      = .next (ecbState h (ecbState g s)) := complete_ecbResult (s := ecbState g s) hk hl hb h
    _ = .next { s with mem := (ecbState h (ecbState g s)).mem, done := true, busy := false } := rfl
    _ = _ := by rw [hmem]

/-- Settles O38. -/
theorem ecbEncEncryptsEachBlock : Obligations.EcbEncEncryptsEachBlock := fun _ hm hk hl hb =>
  ecbReplacesEachBlock hm hk hl hb aesEnc

/-- Settles O39. -/
theorem ecbDecDecryptsEachBlock : Obligations.EcbDecDecryptsEachBlock := fun _ hm hk hl hb =>
  ecbReplacesEachBlock hm hk hl hb aesDec

/-- Settles O40. -/
theorem ecbCommandsAreMutuallyInverse : Obligations.EcbCommandsAreMutuallyInverse := fun s hm hk hl hb =>
  ⟨⟨ecbState aesEnc s, complete_ecbResult hk hl hb aesEnc,
      complete_ecbResult_ecbState aesDec_aesEnc hm hk hl hb⟩,
    ⟨ecbState aesDec s, complete_ecbResult hk hl hb aesDec,
      complete_ecbResult_ecbState aesEnc_aesDec hm hk hl hb⟩⟩

end Sys2Proof.AesBlockFamily

namespace Sys2Proof.KeystreamFamily

open Sys2Proof.Machine Sys2Proof.Safety Sys2Proof.StateFamily Sys2Proof.AesBlockFamily

/-! # The counter blocks (42_keystream.md R200, 43_cmac_mic.md R215) -/

/-- Four bytes, least significant first, are the lanes of the word. -/
theorem bytesLe_toNat (v : Word) : bytesLe v.toNat 4 = lanes v := by
  have byte (i : Nat) : BitVec.ofNat 8 (v.toNat / 2 ^ (8 * i)) = lane v i :=
    BitVec.eq_of_toNat_eq (toNat_lane v i).symm
  simp only [lanes, ← byte]
  rfl

theorem lane_setWidth_low (v : BitVec 16) {i : Nat} (hi : i < 2) :
    lane (v.setWidth 32) i = v.extractLsb' (8 * i) 8 := by
  ext b hb
  simp [lane]
  omega

theorem lane_setWidth_high (v : BitVec 16) {i : Nat} (hi : 2 ≤ i) : lane (v.setWidth 32) i = 0 := by
  ext b hb
  have hout : v.getLsbD (8 * i + b) = false := BitVec.getLsbD_of_ge v _ (by omega)
  simp [lane, hout]

/-- FCNT takes two of its four bytes; the other two are zero. -/
theorem bytesLe_toNat_half (v : BitVec 16) :
    bytesLe v.toNat 4 = [v.extractLsb' 0 8, v.extractLsb' 8 8, 0, 0] := by
  have hwide : (v.setWidth 32).toNat = v.toNat := BitVec.toNat_setWidth_of_le (by decide)
  rw [← hwide, bytesLe_toNat, lanes, lane_setWidth_low v (by decide), lane_setWidth_low v (by decide),
    lane_setWidth_high v le_rfl, lane_setWidth_high v (by decide)]

theorem toList_counterBlock (first : Byte) (s : State) (last : Byte) :
    (counterBlock first s last).toList =
      [first, 0, 0, 0, 0, BitVec.ofNat 8 s.dir.toNat] ++ lanes s.devaddr ++
        [s.fcnt.extractLsb' 0 8, s.fcnt.extractLsb' 8 8, 0, 0] ++ [0, last] := by
  rw [counterBlock, ← BitVec.ofNat_toNat, bytesLe_toNat, bytesLe_toNat_half]
  exact blockOf_toList _ rfl

/-- Settles O41. -/
theorem counterBlocksByteByByte : Obligations.CounterBlocksByteByByte := fun s i =>
  ⟨toList_counterBlock 0x01 s (BitVec.ofNat 8 i), toList_counterBlock 0x49 s (BitVec.ofNat 8 i)⟩

/-! # Byte by byte xor of strings -/

theorem xorBytes_length_of_le {bs ks : List Byte} (h : bs.length ≤ ks.length) :
    (xorBytes bs ks).length = bs.length := by
  simp [xorBytes, h]

theorem xorBytes_getElem (bs ks : List Byte) {k : Nat} (hk : k < (xorBytes bs ks).length) (hb : k < bs.length)
    (hks : k < ks.length) : (xorBytes bs ks)[k] = bs[k] ^^^ ks[k] :=
  List.getElem_zipWith

theorem xorBytes_xorBytes {bs ks : List Byte} (h : bs.length ≤ ks.length) : xorBytes (xorBytes bs ks) ks = bs := by
  have hlen := xorBytes_length_of_le h
  apply List.ext_getElem ((xorBytes_length_of_le (hlen.trans_le h)).trans hlen)
  intro k hk hk'
  have hks : k < ks.length := by omega
  rw [xorBytes_getElem _ _ hk (hlen ▸ hk') hks, xorBytes_getElem _ _ _ hk' hks, BitVec.xor_assoc, BitVec.xor_self,
    BitVec.xor_zero]

/-! # KS_XOR (42_keystream.md R201, R202) -/

/-- The keystream blocks that KS_XOR uses; the last may go beyond DLEN. -/
def payloadKeystream (s : State) : List Byte := keystream s (blockCount s.dlen.toNat)

theorem dataBytes_length_le_payloadKeystream (s : State) : (dataBytes s).length ≤ (payloadKeystream s).length := by
  rw [dataBytes_length, payloadKeystream, keystream_length]
  exact blockCount_le _

theorem payloadKeystream_getElem (s : State) {j : Nat} {n : Fin 16} (h : 16 * j + n.val < (payloadKeystream s).length) :
    (payloadKeystream s)[16 * j + n.val] = (aesEnc s.key (blockA s (j + 1)))[n] := by
  have hdiv : (16 * j + n.val) / 16 = j := by omega
  have hmod : (16 * j + n.val) % 16 = n.val := by omega
  calc (payloadKeystream s)[16 * j + n.val]
      = (aesEnc s.key (blockA s ((16 * j + n.val) / 16 + 1)))[(16 * j + n.val) % 16]'(Nat.mod_lt _ (by decide)) :=
        flatMap_blocks_getElem _ _ _ h
    _ = (aesEnc s.key (blockA s (j + 1)))[n] := by simp only [hdiv, hmod, Fin.getElem_fin]

/-- The bytes that KS_XOR leaves in DBUF[0..DLEN]. -/
def ksXorBytes (s : State) : List Byte := xorBytes (dataBytes s) (payloadKeystream s)

/-- The state after a KS_XOR that raised nothing. -/
def ksXorState (s : State) : State :=
  { s with mem := writeBytes s.mem Config.dbufBase (ksXorBytes s), done := true, busy := false }

theorem ksXorBytes_length (s : State) : (ksXorBytes s).length = s.dlen.toNat :=
  (xorBytes_length_of_le (dataBytes_length_le_payloadKeystream s)).trans (dataBytes_length s)

theorem ksXorBytes_getElem (s : State) {j : Nat} {n : Fin 16} (h : 16 * j + n.val < (ksXorBytes s).length) :
    (ksXorBytes s)[16 * j + n.val] =
      readByte s.mem (0x400 + (16 * j + n.val)) ^^^ (aesEnc s.key (blockA s (j + 1)))[n] := by
  have hdata : 16 * j + n.val < (dataBytes s).length := by rwa [dataBytes_length, ← ksXorBytes_length]
  have hks := hdata.trans_le (dataBytes_length_le_payloadKeystream s)
  calc (ksXorBytes s)[16 * j + n.val]
      = (dataBytes s)[16 * j + n.val] ^^^ (payloadKeystream s)[16 * j + n.val] := xorBytes_getElem _ _ h hdata hks
    _ = _ := congrArg₂ (· ^^^ ·) (readBytes_getElem _ _ _ _ hdata) (payloadKeystream_getElem s hks)

theorem exec_ksXor {s : State} (hk : s.klen.toNat = 16) (hl : s.dlen.toNat ≤ 256) :
    exec .ksXor s = .next (ksXorState s) := by
  calc exec .ksXor s
      = keyedCommand s (.ok (writeData (ksXorBytes s) s)) := rfl
    _ = .next (ksXorState s) := by
        rw [keyedCommand, (checkKey_eq_ok s).2 hk, (checkDataLength_eq_ok s).2 hl]
        rfl

/-- Settles O42. -/
theorem ksXorAppliesTheKeystream : Obligations.KsXorAppliesTheKeystream := by
  intro s hm hk hl
  refine ⟨(ksXorState s).mem, exec_ksXor hk hl, fun j n hj => ?_, fun x hx => ?_⟩
  · have hlt : 16 * j + n.val < (ksXorBytes s).length := by rwa [ksXorBytes_length]
    calc readByte (ksXorState s).mem (0x400 + (16 * j + n.val))
        = (ksXorBytes s)[16 * j + n.val] := readByte_writeBytes_inside _ _ _ _ hm hlt
      _ = _ := ksXorBytes_getElem s hlt
  · exact readByte_writeBytes_outside _ _ _ _ (by rwa [ksXorBytes_length])

theorem dataBytes_ksXorState {s : State} (hm : Memory.wf s.mem = true) : dataBytes (ksXorState s) = ksXorBytes s := by
  have h := readBytes_writeBytes_same (ksXorBytes s) s.mem Config.dbufBase hm
  rwa [ksXorBytes_length] at h

/-- KS_XOR leaves KEY, DIR, DEVADDR, FCNT and DLEN, so the second run has the keystream of the first. -/
theorem payloadKeystream_ksXorState (s : State) : payloadKeystream (ksXorState s) = payloadKeystream s := rfl

theorem ksXorBytes_ksXorState {s : State} (hm : Memory.wf s.mem = true) : ksXorBytes (ksXorState s) = dataBytes s := by
  rw [ksXorBytes, dataBytes_ksXorState hm, payloadKeystream_ksXorState]
  exact xorBytes_xorBytes (dataBytes_length_le_payloadKeystream s)

theorem ksXorState_ksXorState {s : State} (hm : Memory.wf s.mem = true) :
    ksXorState (ksXorState s) = { s with done := true, busy := false } := by
  have hmem : (ksXorState (ksXorState s)).mem = s.mem := by
    have hback := writeBytes_writeBytes_readBytes hm Config.dbufBase (ksXorBytes s)
    rw [ksXorBytes_length] at hback
    rw [ksXorState, ksXorBytes_ksXorState hm]
    exact hback
  calc ksXorState (ksXorState s)
      = { s with mem := (ksXorState (ksXorState s)).mem, done := true, busy := false } := rfl
    _ = { s with done := true, busy := false } := by rw [hmem]

/-- Settles O43. -/
theorem ksXorIsItsOwnInverse : Obligations.KsXorIsItsOwnInverse := fun s hm hk hl =>
  ⟨ksXorState s, exec_ksXor hk hl,
    (exec_ksXor (s := ksXorState s) hk hl).trans (congrArg _ (ksXorState_ksXorState hm))⟩

end Sys2Proof.KeystreamFamily

namespace Sys2Proof.MacFamily

open Sys2Proof.Machine Sys2Proof.Safety Sys2Proof.AesBlockFamily

/-! # Doubling (43_cmac_mic.md R211) -/

/-- The doubled number fits 16 bytes again: the shifted number and 0x87 are both below 2^128. -/
theorem intBe_dbl (x : Block) :
    intBe (dbl x).toList =
      (2 * intBe x.toList % 2 ^ 128) ^^^ (if (intBe x.toList).testBit 127 then 0x87 else 0) := by
  have hshift : 2 * intBe x.toList % 2 ^ 128 < 2 ^ 128 := Nat.mod_lt _ (by decide)
  have hrb : (if (intBe x.toList).testBit 127 then 0x87 else 0) < 2 ^ 128 := by split <;> decide
  rw [dbl, blockOf_toList _ (bytesBe_length _ _), intBe_bytesBe, Nat.shiftLeft_eq, Nat.pow_one, Nat.mul_comm]
  exact Nat.mod_eq_of_lt (Nat.xor_lt_two_pow hshift hrb)

/-! # The chain and the last block (43_cmac_mic.md R212) -/

theorem zeroBlock_eq_ofFn : zeroBlock = Vector.ofFn fun _ => 0 := by
  apply Vector.ext
  simp

theorem xorBlock_dataBlock (x : Block) (m : List Byte) (i : Nat) :
    xorBlock x (dataBlock m i) = Vector.ofFn fun j : Fin 16 => x[j] ^^^ m.getD (16 * i + j.val) 0 := by
  apply Vector.ext
  simp

theorem cmacBlocks_eq (len : Nat) : cmacBlocks len = if len = 0 then 1 else (len + 15) / 16 := rfl

/-- The last block of a message of every length, padded or not. -/
theorem cmacLast_eq_ofFn (k : Block) (m : List Byte) :
    cmacLast k m = Vector.ofFn fun j : Fin 16 =>
      if m.length ≠ 0 ∧ m.length % 16 = 0 then
        m.getD (16 * (cmacBlocks m.length - 1) + j.val) 0 ^^^ (cmacK1 k)[j]
      else
        (if 16 * (cmacBlocks m.length - 1) + j.val < m.length then
          m.getD (16 * (cmacBlocks m.length - 1) + j.val) 0
        else if 16 * (cmacBlocks m.length - 1) + j.val = m.length then 0x80 else 0) ^^^ (cmacK2 k)[j] := by
  apply Vector.ext
  intro n hn
  rw [Vector.getElem_ofFn]
  by_cases hc : m.length ≠ 0 ∧ m.length % 16 = 0
  · rw [if_pos hc]
    exact cmacLast_getElem_complete k m n hn hc
  · rw [if_neg hc]
    exact cmacLast_getElem_padded k m n hn hc

set_option maxRecDepth 100000 in
/-- The check values of R211 and R212, by running the model on their inputs. -/
theorem cmac_checkValues :
    let k := blockOf (bytesBe 0x2b7e151628aed2a6abf7158809cf4f3c 16);
    intBe (cmacL k).toList = 0x7df76b0c1ab899b33e42f047b91b546f ∧
    intBe (cmacK1 k).toList = 0xfbeed618357133667c85e08f7236a8de ∧
    intBe (cmacK2 k).toList = 0xf7ddac306ae266ccf90bc11ee46d513b ∧
    intBe (cmac k []).toList = 0xbb1d6929e95937287fa37d129b756746 ∧
    intBe (cmac k (bytesBe 0x6bc1bee22e409f96e93d7e117393172a 16)).toList = 0x070a16b46b4d4144f79bdd9dd04a287c := by
  refine ⟨?_, ?_, ?_, ?_, ?_⟩ <;> decide

/-- Settles O36; the chain is the model's own. -/
theorem cmacFollowsItsRules : Obligations.CmacFollowsItsRules := by
  refine ⟨intBe_dbl, fun k => ⟨by rw [cmacL, zeroBlock_eq_ofFn], rfl, rfl⟩, fun k m => ?_, cmac_checkValues⟩
  refine ⟨cmacChain k m, fun j => zeroBlock_getElem j.val j.isLt, fun i _ => ?_, ?_⟩
  · rw [cmacChain, xorBlock_dataBlock]
  · rw [cmac, cmacLast_eq_ofFn, cmacBlocks_eq]
    rfl

/-! # The commands CMAC and MIC_DATA (43_cmac_mic.md R214, R216) -/

theorem keyedCommand_of_ok {s : State} (hk : s.klen.toNat = 16) (hl : s.dlen.toNat ≤ 256) (t : State) :
    keyedCommand s (.ok t) = .next (finishCommand t) := by
  rw [keyedCommand, (checkKey_eq_ok s).2 hk, bind_ok, (checkDataLength_eq_ok s).2 hl, bind_ok, complete_ok]

/-- Settles O44. -/
theorem cmacLeavesTheTagOfTheData : Obligations.CmacLeavesTheTagOfTheData := fun s hk hl =>
  keyedCommand_of_ok hk hl (setTag (cmac s.key (dataBytes s)) s)

/-- The message whose tag MIC_DATA leaves: B0, then the data bytes. -/
def micDataMessage (s : State) : List Byte := (blockB0 s s.dlen.toNat).toList ++ dataBytes s

/-- Settles O45. -/
theorem micDataLeavesTheTagOfB0AndTheData : Obligations.MicDataLeavesTheTagOfB0AndTheData := by
  intro s hk hl
  have htag : (checkMicLength s >>= fun _ => .ok (setTag (cmac s.key (micDataMessage s)) s)) =
      .ok (setTag (cmac s.key (micDataMessage s)) s) := by
    rw [(checkMicLength_eq_ok s).2 hl, bind_ok]
  exact (congrArg (keyedCommand s) htag).trans (keyedCommand_of_ok hk (by omega) _)

end Sys2Proof.MacFamily

namespace Sys2Proof.SystemFamily

open Sys2Proof.Machine Sys2Proof.EncodingFamily

/-! # NOP and SRST (44_system.md R230, R231) -/

/-- NOP has no rule of its own, so what is left is the end of a command that raised nothing (R105). -/
theorem exec_nop (s : State) : exec .nop s = .next (finishCommand s) := by
  calc exec .nop s
      = complete s (.ok s) := rfl
    _ = .next (finishCommand s) := complete_ok s s

/-- Settles O30: the end of a command assigns DONE and BUSY alone. -/
theorem nopOnlyCompletes : Obligations.NopOnlyCompletes := exec_nop

/-- Settles O31: SRST is the reset event on the block's own state. -/
theorem srstGivesTheResetState : Obligations.SrstGivesTheResetState := exec_srst

end Sys2Proof.SystemFamily

namespace Sys2Proof.ExceptionsFamily

open Sys2Proof.Machine Sys2Proof.Safety Sys2Proof.StateFamily Sys2Proof.EncodingFamily

/-! # Errors are precise (60_exceptions.md R242, R245)

`EndsIn` follows each rule from any state: its error is a row of table T242, and its result has the ERR bit of the state
it started on, so a completion that leaves ERR = 1 has raised that error. -/

/-- F and its descriptor are checked before the rule of a command on one field goes on. -/
theorem endsIn_fieldRule {P : State → Prop} {s : State} (b : Byte) {rest : Fin 16 → Except CmdError State}
    (hrest : ∀ f, EndsIn P (rest f)) :
    EndsIn P (do
      let f ← fieldOperand b
      checkDesc f s.desc[f]
      rest f) :=
  endsIn_bind (endsIn_fieldOperand b) fun f _ => endsIn_bind (endsIn_checkDesc f s.desc[f]) fun _ _ => hrest f

/-- The key check and the first length check open the rule of every keyed command. -/
theorem endsIn_keyedRule {P : State → Prop} {s : State} {rest : Except CmdError State} (hrest : EndsIn P rest) :
    EndsIn P (do
      checkKey s
      checkDataLength s
      rest) :=
  endsIn_bind (endsIn_checkKey s) fun _ _ => endsIn_bind (endsIn_checkDataLength s) fun _ _ => hrest

theorem ecbResult_endsIn_sameErr (g : Block → Block → Block) (s : State) :
    EndsIn (fun u => u.err = s.err) (ecbResult g s) :=
  endsIn_keyedRule (endsIn_bind (endsIn_checkWholeBlocks s) fun _ _ => rfl)

/-- Every command but SRST completes by a rule that raises a row of table T242 or leaves ERR as it is. -/
theorem exec_endsIn_sameErr {i : Instr} (hi : i ≠ .srst) (s : State) :
    ∃ r, exec i s = complete s r ∧ EndsIn (fun u => u.err = s.err) r := by
  cases i with
  | srst => exact absurd rfl hi
  | nop | bfClr => exact ⟨.ok _, rfl, rfl⟩
  | ecbEnc | ecbDec => exact ⟨_, rfl, ecbResult_endsIn_sameErr _ s⟩
  | ksXor => exact ⟨_, rfl, endsIn_keyedRule (writeData_err _ s)⟩
  | cmac => exact ⟨_, rfl, endsIn_keyedRule (setTag_err _ s)⟩
  | micData => exact ⟨_, rfl, endsIn_keyedRule (endsIn_bind (endsIn_checkMicLength s) fun _ _ => setTag_err _ s)⟩
  | bfEncode => exact ⟨_, rfl, endsIn_bind (endsIn_checkTable s.desc) fun _ _ => rfl⟩
  | bfDecode =>
    refine ⟨_, rfl, endsIn_bind (endsIn_checkTable s.desc) fun _ _ => ?_⟩
    refine endsIn_bind (endsIn_require (inTable242_of_plainRow (by decide))) fun _ _ => ?_
    exact endsIn_bind (endsIn_checkEach (fun f => endsIn_checkBits _ _ f _ _) _) fun _ _ => setAllFv_err _ s
  | bfSet b =>
    exact ⟨_, rfl, endsIn_fieldRule b fun f => endsIn_bind (endsIn_checkSetter s.etab f s.desc[f] s.fdata) fun _ _ =>
      setFv_err f _ s⟩
  | bfGet b =>
    exact ⟨_, rfl, endsIn_fieldRule b fun f => endsIn_bind (endsIn_requireField f (by decide)) fun _ _ =>
      setFdata_err _ s⟩
  | bfTest b k | bfEchk b =>
    refine ⟨_, rfl, endsIn_fieldRule b fun f => ?_⟩
    exact endsIn_bind (endsIn_requireField f (by decide)) fun _ _ =>
      endsIn_bind (endsIn_requireField f (by decide)) fun _ _ => rfl

/-- SRST cannot fail, and the result of another rule keeps ERR = 0; so what leaves ERR = 1 is an error entry. -/
theorem exec_failed {i : Instr} {s t : State} (he : s.err = false) (h : exec i s = .next t) (ht : t.err = true) :
    ∃ e, inTable242 e ∧ t = raiseError e s := by
  by_cases hi : i = .srst
  · subst hi
    obtain rfl := Host.Outcome.next.inj ((exec_srst s).symm.trans h)
    exact absurd ht nofun
  · obtain ⟨r, hexec, hr⟩ := exec_endsIn_sameErr hi s
    obtain ⟨e, rfl, rfl⟩ | ⟨u, rfl, rfl⟩ := complete_cases s t r (hexec.symm.trans h)
    · exact ⟨e, hr, rfl⟩
    · have herr : u.err = false := hr.trans he
      exact absurd (herr.symm.trans ht) nofun

theorem completionStep_failed {s t : State} (he : s.err = false) (h : completionStep s = .next t) (ht : t.err = true) :
    ∃ e, inTable242 e ∧ t = raiseError e s := by
  cases hd : decode s.cmdr with
  | ok i => exact exec_failed he ((completionStep_of_decode s i hd).symm.trans h) ht
  | error d =>
    obtain rfl := Host.Outcome.next.inj ((completionStep_of_illegal s d hd).symm.trans h)
    exact ⟨illegalCommand d, inTable242_illegalCommand hd, rfl⟩

/-- Settles O11. -/
theorem errorsArePrecise : Obligations.ErrorsArePrecise := by
  intro s t hb he h ht
  obtain ⟨e, hrow, rfl⟩ := completionStep_failed he ((engineStep_busy s hb).symm.trans h) ht
  exact ⟨e, hrow, raiseError_eq_failed e s⟩

/-! # Error return (60_exceptions.md R246, R247) -/

/-- The write of STATUS bit 2 alone is error return, on a block with an error on record or not (R247). -/
theorem memWrite_status_bit2 (s : State) :
    memWrite (Config.base + 0x008) 4 0x00000004 s =
      { s with err := false, errcode := 0, errinfo := 0, portAnswer := .written } := by
  rw [statusWriteOneToClear]
  simp

/-- Settles O25: error return leaves the block idle with ERR = 0, where CMD is accepted; before it CMD is dropped. -/
theorem errorReturnByTheHost : Obligations.ErrorReturnByTheHost := by
  intro s w hb he
  refine ⟨memWrite_status_bit2 s, ?_, (acceptanceOfACommand s 0x00000001).2 (.inr he)⟩
  rw [memWrite_status_bit2]
  exact (acceptanceOfACommand { s with err := false, errcode := 0, errinfo := 0, portAnswer := .written } w).1 hb rfl

/-! # The interrupt output (60_exceptions.md R250) -/

/-- `STATUS & IEN & 0xE`, by the words the host reads (R250). -/
def enabledCauses (s : State) : Word := readReg s .status &&& readReg s .ien &&& 0x0000000E

/-- The causes of an interrupt bit by bit: DONE, ERR and WERR, each where it is enabled. -/
theorem getLsbD_enabledCauses (s : State) (k : Nat) (hk : k < 32) :
    (enabledCauses s).getLsbD k =
      [false, s.done && s.doneIE, s.err && s.errIE, s.werr && s.werrIE].getD k false := by
  have hstatus : (readReg s .status).getLsbD k = _ := getLsbD_statusWord s k hk
  have hien : (readReg s .ien).getLsbD k = _ := getLsbD_ienWord s k hk
  rw [enabledCauses, BitVec.getLsbD_and, BitVec.getLsbD_and, hstatus, hien]
  match k with
  | 0 | 1 | 2 | 3 => simp
  | n + 4 => simp

/-- No enabled cause is set exactly when irq = 0. -/
theorem enabledCauses_eq_zero_iff (s : State) : enabledCauses s = 0 ↔ irq s = false := by
  have hirq : irq s = false ↔
      (s.done && s.doneIE) = false ∧ (s.err && s.errIE) = false ∧ (s.werr && s.werrIE) = false := by
    simp only [irq, Bool.or_eq_false_iff, and_assoc]
  rw [hirq]
  constructor
  · intro h
    have bit (k : Nat) (hk : k < 32) :
        [false, s.done && s.doneIE, s.err && s.errIE, s.werr && s.werrIE].getD k false = false := by
      rw [← getLsbD_enabledCauses s k hk, h, BitVec.ofNat_eq_ofNat, BitVec.getLsbD_zero]
    exact ⟨bit 1 (by decide), bit 2 (by decide), bit 3 (by decide)⟩
  · rintro ⟨hdone, herr, hwerr⟩
    apply BitVec.eq_of_getLsbD_eq
    intro k hk
    rw [getLsbD_enabledCauses s k hk, hdone, herr, hwerr]
    match k with
    | 0 | 1 | 2 | 3 => simp
    | n + 4 => simp

/-- Settles O26: the three products of flag and enable are the bits of `STATUS & IEN & 0xE`. -/
theorem irqIsAFunctionOfStatusAndIen : Obligations.IrqIsAFunctionOfStatusAndIen := by
  intro s
  constructor
  · simp only [irq, Bool.or_eq_true, Bool.and_eq_true, or_assoc]
  · rw [← Bool.not_eq_false, ← enabledCauses_eq_zero_iff]
    rfl

end Sys2Proof.ExceptionsFamily

namespace Sys2Proof.ResetFamily

open Sys2Proof.Machine Sys2Proof.EncodingFamily

/-! # The reset event (70_reset_and_hazards.md R270, R272) -/

/-- Settles O29: BUSY is not asked for, so a command in progress goes with the rest of the state. -/
theorem resetEventGivesTheResetState : Obligations.ResetEventGivesTheResetState := by
  intro s es hscript
  calc step s
      = runEvent .reset (setScript es s) := step_of_script_cons s .reset es hscript
    _ = .next { State.reset with script := es, portAnswer := s.portAnswer } := rfl

/-! # A busy block completes (70_reset_and_hazards.md R281 (a))

The engine's turn ends with BUSY = 0, and every other step uses up one pending step of the environment, so the engine's
turn comes after the last of them if not before. -/

/-- Every command ends with BUSY = 0: in an error record, with DONE, or in the reset state (R105, R231). -/
theorem busy_of_exec {i : Instr} {s t : State} (h : exec i s = .next t) : t.busy = false := by
  by_cases hi : i = .srst
  · subst hi
    obtain rfl := Host.Outcome.next.inj ((exec_srst s).symm.trans h)
    rfl
  · obtain ⟨e, rfl⟩ | ⟨u, -, rfl⟩ := exec_cases hi h
    · exact raiseError_busy e s
    · exact finishCommand_busy u

/-- The engine's turn leaves BUSY = 0, whatever word is in CMDR. -/
theorem busy_of_engineStep {s t : State} (h : engineStep s = .next t) : t.busy = false := by
  cases hb : s.busy with
  | false =>
    obtain rfl := Host.Outcome.next.inj ((engineStep_idle s hb).symm.trans h)
    exact hb
  | true =>
    rw [engineStep_busy s hb] at h
    cases hd : decode s.cmdr with
    | error e =>
      obtain rfl := Host.Outcome.next.inj ((completionStep_of_illegal s e hd).symm.trans h)
      exact raiseError_busy _ s
    | ok i => exact busy_of_exec ((completionStep_of_decode s i hd).symm.trans h)

theorem writeReg_script (r : Reg) (v : Word) (s : State) : (writeReg r v s).script = s.script := by
  cases r with
  | status => exact writeStatus_script v s
  | _ => rfl

theorem memRead_script (addr n : Nat) (s : State) : (memRead addr n s).script = s.script := by
  obtain ⟨r, -, h⟩ | ⟨-, h⟩ := memRead_cases addr n s
  · rw [h, setAnswer_script]
  · rw [h, setAnswer_script]

theorem memWrite_script (addr n : Nat) (v : Word) (s : State) : (memWrite addr n v s).script = s.script := by
  obtain ⟨-, h⟩ | ⟨r, -, ⟨-, h⟩ | ⟨-, h⟩⟩ := memWrite_cases addr n v s
  · rw [h, setAnswer_script]
  · rw [h, setAnswer_script, setWerr_script]
  · rw [h, setAnswer_script, writeReg_script]

/-- A step of the environment adds no pending step; the engine's turn ends the command. -/
theorem idle_or_sameScript_of_runEvent {e : Event} {s t : State} (h : runEvent e s = .next t) :
    t.busy = false ∨ t.script = s.script := by
  cases e with
  | engine => exact .inl (busy_of_engineStep h)
  | read addr n => exact .inr (Host.Outcome.next.inj h ▸ memRead_script addr n s)
  | write addr n v => exact .inr (Host.Outcome.next.inj h ▸ memWrite_script addr n v s)
  | fetch addr n => exact .inr (Host.Outcome.next.inj h ▸ setAnswer_script .busError s)
  | reset => exact .inr (Host.Outcome.next.inj h ▸ resetBlock_script s)

/-- A run of one step more, for every machine: its first step and the run from there. -/
theorem run_succ {M : Host.Core} {s t : M.State} (h : M.step s = .next t) (k : Nat) :
    M.run (k + 1) s = M.run k t := by
  rw [Host.Core.run, h]

/-- The machine reaches a state with BUSY = 0 within `bound` steps. -/
def IdleWithin (bound : Nat) (s : State) : Prop :=
  ∃ (n : Nat) (t : State), n ≤ bound ∧ Host.Core.run core n s = .next t ∧ t.busy = false

theorem idleWithin_of_idle {s : State} (h : s.busy = false) (bound : Nat) : IdleWithin bound s :=
  ⟨0, s, bound.zero_le, rfl, h⟩

theorem idleWithin_of_step {s u : State} {bound : Nat} (hstep : step s = .next u) (h : IdleWithin bound u) :
    IdleWithin (bound + 1) s := by
  obtain ⟨n, t, hn, hrun, ht⟩ := h
  exact ⟨n + 1, t, Nat.succ_le_succ hn, (run_succ (M := core) hstep n).trans hrun, ht⟩

/-- By induction on the pending steps: the first of them ends the command or leaves the others pending. -/
theorem idleWithin_of_script {es : List Event} {s : State} (hscript : s.script = es) :
    IdleWithin (es.length + 1) s := by
  induction es generalizing s with
  | nil =>
    obtain ⟨u, hu⟩ := engineStep_next s
    exact idleWithin_of_step ((step_of_script_nil s hscript).trans hu) (idleWithin_of_idle (busy_of_engineStep hu) 0)
  | cons e es ih =>
    obtain ⟨u, hu⟩ := runEvent_next e (setScript es s)
    have hrest : IdleWithin (es.length + 1) u := by
      obtain hidle | hpending := idle_or_sameScript_of_runEvent hu
      · exact idleWithin_of_idle hidle _
      · exact ih hpending
    exact idleWithin_of_step ((step_of_script_cons s e es hscript).trans hu) hrest

/-- Settles O8: the bound counts the pending steps and the engine's turn after them; it holds of an idle block too. -/
theorem busyBlockAlwaysCompletes : Obligations.BusyBlockAlwaysCompletes :=
  fun _ _ => idleWithin_of_script rfl

end Sys2Proof.ResetFamily
